-- ==== Sys2Proof/Word.lean ====
section
/-! DEFINITION. The word types of the RSU (00_scope R7, 20_memory R60) and the two fixed-size containers its register
files are made of. Nothing here decides what an operation does. -/

namespace Sys2Proof

/-- One byte of `RSV`, `MD`, `PCM` or of a command's operands (20_memory R60). -/
abbrev Byte := BitVec 8

/-- The 32 bits of one value of `F`: IEEE 754 binary32, the default of 00_scope R7 (D3). Its arithmetic is in
Machine/Float32.lean. -/
abbrev F32 := BitVec 32

/-- A fixed number of like cells, read and written by index: a register file's row. -/
structure Bank (α : Type) (n : Nat) where
  cells : List α
  len : cells.length = n
  deriving DecidableEq, Repr

/-- The row whose cell `i` is `f i`. -/
def Bank.tab {α : Type} (n : Nat) (f : Nat → α) : Bank α n := ⟨(List.range n).map f, by simp⟩

/-- Cell `i`; `d` only where `i` is no index of the row, which no rule forms. -/
def Bank.get {α : Type} {n : Nat} (b : Bank α n) (i : Nat) (d : α) : α := b.cells.getD i d

/-- The row with cell `i` replaced (unchanged where `i` is no index of the row). -/
def Bank.set {α : Type} {n : Nat} (b : Bank α n) (i : Nat) (x : α) : Bank α n :=
  ⟨b.cells.set i x, by simp [b.len]⟩

/-- A pair of like things indexed by a one-bit number: granule 0 and 1, channel 0 and 1 (10_state R21). -/
structure Two (α : Type) where
  zero : α
  one : α
  deriving DecidableEq, Repr

def Two.get {α : Type} (p : Two α) (i : Fin 2) : α := if i = 0 then p.zero else p.one

def Two.set {α : Type} (p : Two α) (i : Fin 2) (x : α) : Two α :=
  if i = 0 then ⟨x, p.one⟩ else ⟨p.zero, x⟩

/-- Both members the same. -/
def Two.both {α : Type} (x : α) : Two α := ⟨x, x⟩

/-- The pair whose member `i` is `f i`. -/
def Two.tab {α : Type} (f : Fin 2 → α) : Two α := ⟨f 0, f 1⟩

end Sys2Proof
end

