-- ==== Sys2Proof/Config.lean ====
section
/-! DEFINITION. What an implementation fixes (00_scope R6) and the values the spec leaves open. An `opaque` constant has
no body: nothing can evaluate it, so a theorem that mentions one holds for every value of it. -/

namespace Sys2Proof

/-- The policy for a bit read past the end of `MD` (40_bitcursor_reservoir R134). -/
inductive OverRead where
  | fault
  | zero
  deriving DecidableEq, Repr

/-- `OVERREAD`: the default `fault` of 00_scope R6 (D5). -/
def Config.overread : OverRead := .fault

/-- `SYNTH_D[0..511]`, OPEN (20_memory R81, D22). Read through `synthD`, which keeps it a finite value of `F`. -/
opaque Config.synthWindow : Nat → F32

/-- `HUFF_PAIR[t]`, OPEN for `t` in 2..31 but 4 and 14 (42_huffman R167, D33): codewords with their `(x0, y0)`.
Read through `pairBook`, which keeps the shape R167 fixes. -/
opaque Config.huffPair : Nat → List (List Bool × (Nat × Nat))

/-- The host's frame-size formula, which the spec does not give (00_scope R5(d), N3), as a function of the header fields
30_encoding R94 says it comes from: version, bitrate index, sampling frequency, padding. -/
opaque Config.frameSize : Bool → BitVec 4 → BitVec 2 → Bool → BitVec 12

/-- What requantizing a line gives where the line is no image of an integer of magnitude at most 8206, a case
43_requantize_reorder R191 states no result for: a function of the line and the exponent. -/
opaque Config.requantUnstated : F32 → Int → F32

/-- `PcmConvert` of a value that is not finite, for which 46_synthesis_pcm R256 states no result. -/
opaque Config.pcmUnstated : F32 → BitVec 16

/-- `TAB.SLEN` at an index above 15, for which 20_memory R74 states no entry. -/
opaque Config.slenUnstated : Nat → Nat × Nat

/-- `tail(s, n)` where `n > len(s)`, which 00_scope R8 leaves undefined. -/
opaque Config.tailUnstated : List Byte → Nat → List Byte

end Sys2Proof
end

