-- ==== Sys2Proof/Syntax.lean ====
section
/-! DEFINITION. The abstract syntax: one constructor of `Instr` per row of the opcode table, with the operands the
spec gives it, already taken out of their encodings (30_encoding). -/

namespace Sys2Proof

/-- The operation codes of 30_encoding R92, by name. `SEQ.op` holds one (10_state R26). -/
inductive Opid where
  | idle | reset | frame | loadsi
  | bcRead | bcPos | bcSetpos
  | rsvCheck | rsvRecv | rsvAppend | rsvSplice
  | scfClear | scfM1 | scfM2
  | hufGranule | hufBig | hufCnt1 | hufPair | hufQuad
  | req | reord | stereo | antialias | hyb | finv | synth | pcmPack
  deriving DecidableEq, Repr

/-- The values of `CAUSE` (60_exceptions R287). -/
inductive Cause where
  | noCause
  | frameSize | mainSize | bitsOverrun | scfCount | huffTableReserved | huffIllegal
  | lineRange | regionRange | stereoBlockMismatch
  | siTruncated | mainTruncated
  | rsvInsufficient
  deriving DecidableEq, Repr

/-- `SI.BLOCK_TYPE` (10_state R33). -/
inductive BlockType where
  | normal | start | short | stop
  deriving DecidableEq, Repr

/-- `HDR.MODE` (10_state R30). -/
inductive ChannelMode where
  | stereo | joint | dual | single
  deriving DecidableEq, Repr

/-- The header-derived registers `HDR.*` (10_state R30). `HDR.SFREQ` is 0, 1 or 2; 3 never reaches the RSU. -/
structure Hdr where
  lsf : Bool
  sfreq : Fin 3
  mode : ChannelMode
  modeExt : BitVec 2
  prot : Bool
  frameSize : BitVec 12
  deriving DecidableEq, Repr

/-- The record of a `FRAME` command (30_encoding R93). -/
structure FrameRec where
  hdr : Hdr
  siImage : List Byte
  main : List Byte
  deriving DecidableEq, Repr

/-- First fields of every side-information group (30_encoding R96): 12, 9 and 8 bits. -/
structure GroupHead where
  part23Length : BitVec 12
  bigValues : BitVec 9
  globalGain : BitVec 8
  deriving DecidableEq, Repr

/-- The 22 bits after `WIN_SWITCH = 1` (30_encoding R96). -/
structure SwitchOn where
  blockType : BlockType
  mixed : Bool
  table0 : BitVec 5
  table1 : BitVec 5
  gain0 : BitVec 3
  gain1 : BitVec 3
  gain2 : BitVec 3
  deriving DecidableEq, Repr

/-- The 22 bits after `WIN_SWITCH = 0` (30_encoding R96). -/
structure SwitchOff where
  table0 : BitVec 5
  table1 : BitVec 5
  table2 : BitVec 5
  region0 : BitVec 4
  region1 : BitVec 3
  deriving DecidableEq, Repr

/-- Last fields of every side-information group (30_encoding R96): `SCALEFAC_SCALE`, `COUNT1TABLE_SELECT`. -/
structure GroupTail where
  scalefacScale : Bool
  count1Table : Bool
  deriving DecidableEq, Repr

/-- The fields of the 32-bit frame header below its 11 sync bits (30_encoding R94). -/
structure HeaderWord where
  version : BitVec 2
  layer : BitVec 2
  protection : Bool
  bitrate : BitVec 4
  sfreq : BitVec 2
  padding : Bool
  privateBit : Bool
  mode : ChannelMode
  modeExt : BitVec 2
  copyright : Bool
  original : Bool
  emphasis : BitVec 2
  deriving DecidableEq, Repr

/-- One constructor per row of the opcode table, in the table's order. `gr` and `ch` are granule and channel. A codeword's
`neg` operand holds its sign bits: bit 3 for `v`, 2 for `w`, 1 for `x`, 0 for `y`; 1 is negative. -/
inductive Instr where
  -- operations with an OPID (30_encoding R92)
  | idle
  | reset
  | frame (rec : FrameRec)
  | loadsi (image : List Byte)
  | bcRead (n : Fin 33)
  | bcPos
  | bcSetpos (pos : Nat)
  | rsvCheck
  | rsvRecv (main : List Byte)
  | rsvAppend (main : List Byte)
  | rsvSplice (main : List Byte)
  | scfClear
  | scfM1 (gr ch : Fin 2)
  | scfM2 (ch : Fin 2)
  | hufGranule (gr ch : Fin 2) (part2Start : Nat)
  | hufBig (gr ch : Fin 2)
  | hufCnt1 (gr ch : Fin 2) (part2Start : Nat)
  | hufPair (t : BitVec 5)
  | hufQuad (q : Bool)
  | req (gr ch : Fin 2)
  | reord (gr ch : Fin 2)
  | stereo (gr : Fin 2)
  | antialias (gr ch : Fin 2)
  | hyb (gr ch : Fin 2)
  | finv (gr ch : Fin 2)
  | synth (gr ch : Fin 2)
  | pcmPack (gr : Fin 2) (ss : Fin 18) (i : Fin 32) (ch : Fin 2) (x : F32)
  -- element functions (30_encoding R91, class FN)
  | reqL (gr ch : Fin 2) (q : BitVec 16) (sfb : Fin 22)
  | reqS (gr ch : Fin 2) (q : BitVec 16) (sfb : Fin 13) (win : Fin 3)
  | stMs (a b : F32)
  | stIs (m : F32) (p : Fin 7)
  | imdctL (x : Bank F32 18) (bt : BlockType)
  | imdctS (x : Bank F32 18)
  | ola (gr ch : Fin 2) (sb : Fin 32) (raw : Bank F32 36)
  | pcmConvert (x : F32)
  -- pseudo-operations (30_encoding R108)
  | prime (k : Nat) (frames : List FrameRec)
  | getBits (n : Fin 33)
  -- side-information groups and frame-level prefixes (30_encoding R96, R97)
  | siGroupM1Ws1 (gr ch : Fin 2) (h : GroupHead) (sfc : BitVec 4) (w : SwitchOn) (preflag : Bool) (t : GroupTail)
  | siGroupM1Ws0 (gr ch : Fin 2) (h : GroupHead) (sfc : BitVec 4) (w : SwitchOff) (preflag : Bool) (t : GroupTail)
  | siGroupLsfWs1 (ch : Fin 2) (h : GroupHead) (sfc : BitVec 9) (w : SwitchOn) (t : GroupTail)
  | siGroupLsfWs0 (ch : Fin 2) (h : GroupHead) (sfc : BitVec 9) (w : SwitchOff) (t : GroupTail)
  | siHeadM1Mono (mdb : BitVec 9) (priv : BitVec 5) (scfsi0 : BitVec 4)
  | siHeadM1Stereo (mdb : BitVec 9) (priv : BitVec 3) (scfsi0 scfsi1 : BitVec 4)
  | siHeadLsfMono (mdb : BitVec 8) (priv : BitVec 1)
  | siHeadLsfStereo (mdb : BitVec 8) (priv : BitVec 2)
  -- the host's frame header (30_encoding R94)
  | header (h : HeaderWord)
  -- items and fields of the main-data stream (30_encoding R100 to R104)
  | pairItem (t : BitVec 5) (x0 y0 : BitVec 4) (linX linY : BitVec 13) (negX negY : Bool)
  | quadItem (q : Bool) (value neg : BitVec 4)
  | scfFieldM1 (gr ch : Fin 2) (second : Bool)
  | scfFieldM2 (ch : Fin 2) (part : Fin 4)
  -- HUFF_QUAD[0], table A (42_huffman R170)
  | quadA0000
  | quadA0001 (neg : BitVec 4)
  | quadA0010 (neg : BitVec 4)
  | quadA0011 (neg : BitVec 4)
  | quadA0100 (neg : BitVec 4)
  | quadA0101 (neg : BitVec 4)
  | quadA0110 (neg : BitVec 4)
  | quadA0111 (neg : BitVec 4)
  | quadA1000 (neg : BitVec 4)
  | quadA1001 (neg : BitVec 4)
  | quadA1010 (neg : BitVec 4)
  | quadA1011 (neg : BitVec 4)
  | quadA1100 (neg : BitVec 4)
  | quadA1101 (neg : BitVec 4)
  | quadA1110 (neg : BitVec 4)
  | quadA1111 (neg : BitVec 4)
  -- HUFF_QUAD[1], table B (42_huffman R170)
  | quadB0000
  | quadB0001 (neg : BitVec 4)
  | quadB0010 (neg : BitVec 4)
  | quadB0011 (neg : BitVec 4)
  | quadB0100 (neg : BitVec 4)
  | quadB0101 (neg : BitVec 4)
  | quadB0110 (neg : BitVec 4)
  | quadB0111 (neg : BitVec 4)
  | quadB1000 (neg : BitVec 4)
  | quadB1001 (neg : BitVec 4)
  | quadB1010 (neg : BitVec 4)
  | quadB1011 (neg : BitVec 4)
  | quadB1100 (neg : BitVec 4)
  | quadB1101 (neg : BitVec 4)
  | quadB1110 (neg : BitVec 4)
  | quadB1111 (neg : BitVec 4)
  -- HUFF_PAIR[1] (42_huffman R178)
  | pairOne00
  | pairOne01 (negY : Bool)
  | pairOne10 (negX : Bool)
  | pairOne11 (negX negY : Bool)
  -- the pair codebooks by table number (42_huffman R167, R169, R177)
  | huffPair0 | huffPair1 | huffPair2 | huffPair3 | huffPair4 | huffPair5 | huffPair6 | huffPair7
  | huffPair8 | huffPair9 | huffPair10 | huffPair11 | huffPair12 | huffPair13 | huffPair14 | huffPair15
  | huffPair16 | huffPair17 | huffPair18 | huffPair19 | huffPair20 | huffPair21 | huffPair22 | huffPair23
  | huffPair24 | huffPair25 | huffPair26 | huffPair27 | huffPair28 | huffPair29 | huffPair30 | huffPair31
  -- the cause codes (60_exceptions R287)
  | causeFrameSize | causeMainSize | causeBitsOverrun | causeScfCount | causeHuffTableReserved | causeHuffIllegal
  | causeLineRange | causeRegionRange | causeStereoBlockMismatch | causeSiTruncated | causeMainTruncated
  | causeRsvInsufficient
  deriving DecidableEq, Repr

end Sys2Proof
end

