-- ==== Sys2Proof/Machine/Classes.lean ====
section
/-! DEFINITION. The class of every row (30_encoding R91, R92, R108) and what the host may issue (47_frame_control R265). -/

namespace Sys2Proof

/-- The classes of 30_encoding R91, and two for the rows it gives none. -/
inductive OpClass where
  /-- `C`: a host command. -/
  | command
  /-- A sequence of host commands (R108: `PRIME`). -/
  | sequence
  /-- `S`: a stage `SEQ.op` can hold. -/
  | stage
  /-- `P`: a primitive or a part of a stage; `GetBits(n)` is `BC.READ n` (R108). -/
  | primitive
  /-- `FN`: a pure element function. -/
  | element
  /-- No operation of R92: a record, field, codeword, codebook or cause code (R93 to R104; 60_exceptions R287). -/
  | datum
  deriving DecidableEq, Repr

/-- The class of an instruction. -/
def Instr.cls : Instr → OpClass
  | .reset | .frame _ => .command
  | .prime _ _ => .sequence
  | .idle | .loadsi _ | .rsvCheck | .rsvRecv _ | .rsvAppend _ | .rsvSplice _ | .scfClear | .scfM1 _ _ | .scfM2 _
  | .hufGranule _ _ _ | .req _ _ | .reord _ _ | .stereo _ | .antialias _ _ | .hyb _ _ | .finv _ _ | .synth _ _ => .stage
  | .bcRead _ | .bcPos | .bcSetpos _ | .hufBig _ _ | .hufCnt1 _ _ _ | .hufPair _ | .hufQuad _ | .pcmPack _ _ _ _ _
  | .getBits _ => .primitive
  | .reqL _ _ _ _ | .reqS _ _ _ _ _ | .stMs _ _ | .stIs _ _ | .imdctL _ _ | .imdctS _ | .ola _ _ _ _
  | .pcmConvert _ => .element
  | .siGroupM1Ws1 _ _ _ _ _ _ _ | .siGroupM1Ws0 _ _ _ _ _ _ _ | .siGroupLsfWs1 _ _ _ _ _ | .siGroupLsfWs0 _ _ _ _ _
  | .siHeadM1Mono _ _ _ | .siHeadM1Stereo _ _ _ _ | .siHeadLsfMono _ _ | .siHeadLsfStereo _ _ | .header _
  | .pairItem _ _ _ _ _ _ _ | .quadItem _ _ _ | .scfFieldM1 _ _ _ | .scfFieldM2 _ _ | .quadA0000 | .quadA0001 _
  | .quadA0010 _ | .quadA0011 _ | .quadA0100 _ | .quadA0101 _ | .quadA0110 _ | .quadA0111 _ | .quadA1000 _
  | .quadA1001 _ | .quadA1010 _ | .quadA1011 _ | .quadA1100 _ | .quadA1101 _ | .quadA1110 _ | .quadA1111 _
  | .quadB0000 | .quadB0001 _ | .quadB0010 _ | .quadB0011 _ | .quadB0100 _ | .quadB0101 _ | .quadB0110 _
  | .quadB0111 _ | .quadB1000 _ | .quadB1001 _ | .quadB1010 _ | .quadB1011 _ | .quadB1100 _ | .quadB1101 _
  | .quadB1110 _ | .quadB1111 _ | .pairOne00 | .pairOne01 _ | .pairOne10 _ | .pairOne11 _ _ | .huffPair0
  | .huffPair1 | .huffPair2 | .huffPair3 | .huffPair4 | .huffPair5 | .huffPair6 | .huffPair7 | .huffPair8
  | .huffPair9 | .huffPair10 | .huffPair11 | .huffPair12 | .huffPair13 | .huffPair14 | .huffPair15 | .huffPair16
  | .huffPair17 | .huffPair18 | .huffPair19 | .huffPair20 | .huffPair21 | .huffPair22 | .huffPair23 | .huffPair24
  | .huffPair25 | .huffPair26 | .huffPair27 | .huffPair28 | .huffPair29 | .huffPair30 | .huffPair31
  | .causeFrameSize | .causeMainSize | .causeBitsOverrun | .causeScfCount | .causeHuffTableReserved
  | .causeHuffIllegal | .causeLineRange | .causeRegionRange | .causeStereoBlockMismatch | .causeSiTruncated
  | .causeMainTruncated | .causeRsvInsufficient => .datum

/-- The host can issue the two commands, one at a time or as the sequence of R108, and nothing else (47_frame_control R265). -/
def Instr.hostMayIssue (i : Instr) : Bool :=
  match i.cls with
  | .command | .sequence => true
  | .stage | .primitive | .element | .datum => false

end Sys2Proof
end

