-- ==== Sys2Proof/Machine/Codebooks.lean ====
section
/-! DEFINITION. Bit strings, prefix codes and the Huffman codebooks (42_huffman R167 to R170, R177, R178). -/

namespace Sys2Proof

/-- The `w` bits of `v`, most significant first (20_memory R64(a)). -/
def natBits (w v : Nat) : List Bool := (List.range w).map fun i => v.testBit (w - 1 - i)

/-- The number a bit string reads as, first bit most significant (20_memory R64(a)). -/
def bitsNat (bs : List Bool) : Nat := bs.foldl (fun a b => 2 * a + b.toNat) 0

/-- A codebook: codewords with their values (42_huffman R167). -/
abbrev Book (α : Type) := List (List Bool × α)

/-- The value whose codeword is exactly `w`. -/
def Book.value {α : Type} (b : Book α) (w : List Bool) : Option α :=
  (b.find? fun e => e.1 == w).map (·.2)

/-- Whether `w` is a prefix of some codeword. -/
def Book.extends {α : Type} (b : Book α) (w : List Bool) : Bool := b.any fun e => w.isPrefixOf e.1

/-- The length of the longest codeword. -/
def Book.longest {α : Type} (b : Book α) : Nat := (b.map fun e => e.1.length).foldl max 0

/-- The codeword of a value. -/
def Book.codeword {α : Type} [DecidableEq α] (b : Book α) (v : α) : List Bool :=
  ((b.find? fun e => e.2 = v).map (·.1)).getD []

/-- `HUFF_QUAD[0]`, table A; a value is `vwxy` (42_huffman R170). -/
def quadBookA : Book (BitVec 4) :=
  [ (natBits 1 0b1, 0b0000#4), (natBits 4 0b0101, 0b0001#4), (natBits 4 0b0100, 0b0010#4), (natBits 5 0b00101, 0b0011#4),
    (natBits 4 0b0110, 0b0100#4), (natBits 6 0b000101, 0b0101#4), (natBits 5 0b00100, 0b0110#4), (natBits 6 0b000100, 0b0111#4),
    (natBits 4 0b0111, 0b1000#4), (natBits 5 0b00011, 0b1001#4), (natBits 5 0b00110, 0b1010#4), (natBits 6 0b000000, 0b1011#4),
    (natBits 5 0b00111, 0b1100#4), (natBits 6 0b000010, 0b1101#4), (natBits 6 0b000011, 0b1110#4), (natBits 6 0b000001, 0b1111#4) ]

/-- `HUFF_QUAD[1]`, table B: the four bits of `vwxy`, each inverted (42_huffman R170). -/
def quadBookB : Book (BitVec 4) :=
  (List.range 16).map fun v => (natBits 4 (15 - v), BitVec.ofNat 4 v)

/-- `HUFF_QUAD[q]` (42_huffman R170). -/
def quadBook (q : Bool) : Book (BitVec 4) := if q then quadBookB else quadBookA

/-- `HUFF_PAIR[1]` (42_huffman R178). -/
def pairBookOne : Book (Nat × Nat) :=
  [ (natBits 1 0b1, (0, 0)), (natBits 3 0b001, (0, 1)), (natBits 2 0b01, (1, 0)), (natBits 3 0b000, (1, 1)) ]

/-- `dim(t)` (42_huffman R169); 0 where the table has no codebook (R177). -/
def pairDim (t : Nat) : Nat :=
  [0, 2, 3, 3, 0, 4, 4, 6, 6, 6, 8, 8, 8, 16, 0, 16, 16, 16, 16, 16, 16, 16, 16, 16, 16, 16, 16, 16, 16, 16, 16, 16].getD t 0

/-- `linbits(t)` (42_huffman R169). -/
def linbits (t : Nat) : Nat :=
  [0, 0, 0, 0, 0, 0, 0, 0, 0, 0, 0, 0, 0, 0, 0, 0, 1, 2, 3, 4, 6, 8, 10, 13, 4, 5, 6, 7, 8, 9, 11, 13].getD t 0

/-- Tables 4 and 14 have no codebook and are reserved (42_huffman R177). -/
def reservedTable (t : Nat) : Bool := t == 4 || t == 14

/-- The table whose codewords table `t` shares: 16 to 23 one set, 24 to 31 another (42_huffman R169). -/
def sharedTable (t : Nat) : Nat := if 16 ≤ t ∧ t ≤ 23 then 16 else if 24 ≤ t ∧ t ≤ 31 then 24 else t

/-- The shape 42_huffman R167 requires of `HUFF_PAIR[t]`: codewords non-empty, none a prefix of another, and every
`(x0, y0)` below `dim` exactly once. -/
def legalPairBook (dim : Nat) (b : Book (Nat × Nat)) : Bool :=
  decide (b.Pairwise fun e f => e.1.isPrefixOf f.1 = false ∧ f.1.isPrefixOf e.1 = false ∧ e.2 ≠ f.2) &&
  b.all (fun e => !e.1.isEmpty && decide (e.2.1 < dim) && decide (e.2.2 < dim)) &&
  b.length == dim * dim

/-- A codebook of the shape R167 requires, with codewords of 8 bits each (log 8). -/
def plainPairBook (dim : Nat) : Book (Nat × Nat) :=
  (List.range (dim * dim)).map fun v => (natBits 8 v, (v / dim, v % dim))

/-- `HUFF_PAIR[t]`: table 1 of R178; else the OPEN parameter, which stands for every codebook of the shape R167
requires (a parameter of another shape is no codebook and `plainPairBook` takes its place; log 8). -/
def pairBook (t : Nat) : Book (Nat × Nat) :=
  if t = 1 then pairBookOne
  else if legalPairBook (pairDim t) (Config.huffPair (sharedTable t)) then Config.huffPair (sharedTable t)
  else plainPairBook (pairDim t)

/-- How many of the four elements of a quadruple are non-zero: the sign bits that follow its codeword (30_encoding
R103). -/
def quadSigns (v : BitVec 4) : Nat :=
  (v.getLsbD 3).toNat + (v.getLsbD 2).toNat + (v.getLsbD 1).toNat + (v.getLsbD 0).toNat

/-- The sign bits in the stream: one for each non-zero element, in the order `v`, `w`, `x`, `y` (30_encoding R103). -/
def quadSignBits (v neg : BitVec 4) : List Bool :=
  ([3, 2, 1, 0].filter fun i => v.getLsbD i).map fun i => neg.getLsbD i

/-- A quadruple element: 0, or +1, or -1 where its sign bit is 1 (30_encoding R104(d)). -/
def quadElem (v neg : BitVec 4) (i : Nat) : Int := if v.getLsbD i then (if neg.getLsbD i then -1 else 1) else 0

/-- The four elements `(v, w, x, y)`. -/
def quadElems (v neg : BitVec 4) : List Int := [quadElem v neg 3, quadElem v neg 2, quadElem v neg 1, quadElem v neg 0]

/-- One quadruple as it stands in the stream (30_encoding R103). -/
def quadItemBits (q : Bool) (v neg : BitVec 4) : List Bool := (quadBook q).codeword v ++ quadSignBits v neg

/-- The magnitude of a big value (30_encoding R104(b)). -/
def pairMagnitude (t : Nat) (x0 lin : Nat) : Nat := if 0 < linbits t ∧ x0 = 15 then 15 + lin else x0

/-- A magnitude with its sign (30_encoding R104(c)): a magnitude of 0 is 0. -/
def signed (mag : Nat) (neg : Bool) : Int := if neg then -(mag : Int) else mag

/-- The escape bits of one element, present only after the value 15 of a table that has them (30_encoding R102). -/
def escapeBits (t x0 lin : Nat) : List Bool := if 0 < linbits t ∧ x0 = 15 then natBits (linbits t) lin else []

/-- The sign bit of one element, present only if its magnitude is above 0 (30_encoding R102). -/
def signBits (mag : Nat) (neg : Bool) : List Bool := if 0 < mag then [neg] else []

/-- One pair as it stands in the stream (30_encoding R102). -/
def pairItemBits (t x0 y0 linX linY : Nat) (negX negY : Bool) : List Bool :=
  (if t = 0 then [] else (pairBook t).codeword (x0, y0)) ++
    escapeBits t x0 linX ++ signBits (pairMagnitude t x0 linX) negX ++
    escapeBits t y0 linY ++ signBits (pairMagnitude t y0 linY) negY

end Sys2Proof
end

