-- ==== Sys2Proof/Machine/Fields.lean ====
section
/-! DEFINITION. The numeric codes of the named values (OPIDs, causes, block types, channel modes) and the values derived
from `HDR.*` (10_state R31). -/

namespace Sys2Proof

/-- The 6-bit OPID (30_encoding R92). -/
def Opid.code : Opid → BitVec 6
  | .idle => 0x00#6 | .reset => 0x01#6 | .frame => 0x02#6 | .loadsi => 0x03#6
  | .bcRead => 0x04#6 | .bcPos => 0x05#6 | .bcSetpos => 0x06#6
  | .rsvCheck => 0x08#6 | .rsvRecv => 0x09#6 | .rsvAppend => 0x0A#6 | .rsvSplice => 0x0B#6
  | .scfClear => 0x10#6 | .scfM1 => 0x11#6 | .scfM2 => 0x12#6
  | .hufGranule => 0x18#6 | .hufBig => 0x19#6 | .hufCnt1 => 0x1A#6 | .hufPair => 0x1B#6 | .hufQuad => 0x1C#6
  | .req => 0x20#6 | .reord => 0x21#6 | .stereo => 0x22#6 | .antialias => 0x23#6
  | .hyb => 0x24#6 | .finv => 0x25#6 | .synth => 0x26#6 | .pcmPack => 0x27#6

/-- Class S of 30_encoding R91: the operations `SEQ.op` can hold. -/
def Opid.isStage : Opid → Bool
  | .idle | .loadsi | .rsvCheck | .rsvRecv | .rsvAppend | .rsvSplice | .scfClear | .scfM1 | .scfM2 | .hufGranule
  | .req | .reord | .stereo | .antialias | .hyb | .finv | .synth => true
  | .reset | .frame | .bcRead | .bcPos | .bcSetpos | .hufBig | .hufCnt1 | .hufPair | .hufQuad | .pcmPack => false

/-- The 8-bit code of `CAUSE` (60_exceptions R287). -/
def Cause.code : Cause → BitVec 8
  | .noCause => 0x00#8
  | .frameSize => 0x01#8 | .mainSize => 0x02#8 | .bitsOverrun => 0x03#8 | .scfCount => 0x04#8
  | .huffTableReserved => 0x05#8 | .huffIllegal => 0x06#8 | .lineRange => 0x07#8 | .regionRange => 0x08#8
  | .stereoBlockMismatch => 0x09#8
  | .siTruncated => 0x10#8 | .mainTruncated => 0x11#8
  | .rsvInsufficient => 0x20#8

/-- The three exceptions of the RSU (60_exceptions R285). -/
inductive Exn where
  | formatError
  | unexpectedEos
  | skipped
  deriving DecidableEq, Repr

/-- The exception a cause belongs to: the high nibble of its code (60_exceptions R287). -/
def Cause.exn (c : Cause) : Exn :=
  match (c.code.extractLsb' 4 4).toNat with
  | 0 => .formatError
  | 1 => .unexpectedEos
  | _ => .skipped

/-- `SI.BLOCK_TYPE` from its two bits (10_state R33). -/
def BlockType.ofBits (b : BitVec 2) : BlockType :=
  match b.toNat with
  | 0 => .normal
  | 1 => .start
  | 2 => .short
  | _ => .stop

def BlockType.toBits : BlockType → BitVec 2
  | .normal => 0#2 | .start => 1#2 | .short => 2#2 | .stop => 3#2

/-- `HDR.MODE` from its two bits (10_state R30). -/
def ChannelMode.ofBits (b : BitVec 2) : ChannelMode :=
  match b.toNat with
  | 0 => .stereo
  | 1 => .joint
  | 2 => .dual
  | _ => .single

def ChannelMode.toBits : ChannelMode → BitVec 2
  | .stereo => 0#2 | .joint => 1#2 | .dual => 2#2 | .single => 3#2

/-- `NCH` (10_state R31). -/
def Hdr.nch (h : Hdr) : Nat := if h.mode = .single then 1 else 2

/-- `NGR` (10_state R31). -/
def Hdr.ngr (h : Hdr) : Nat := if h.lsf then 1 else 2

/-- `SI_SIZE` (10_state R31). -/
def Hdr.siSize (h : Hdr) : Nat :=
  if h.lsf then (if h.nch = 1 then 9 else 17) else (if h.nch = 1 then 17 else 32)

/-- `MAIN_SIZE`, a signed integer (10_state R31). -/
def Hdr.mainSize (h : Hdr) : Int :=
  (h.frameSize.toNat : Int) - h.siSize - 4 - (if h.prot then 0 else 2)

/-- `MS_ON` (10_state R31). -/
def Hdr.msOn (h : Hdr) : Bool := h.mode == .joint && h.modeExt.getLsbD 1

/-- `IS_ON` (10_state R31). -/
def Hdr.isOn (h : Hdr) : Bool := h.mode == .joint && h.modeExt.getLsbD 0

/-- `PCM_LEN` (10_state R31). -/
def Hdr.pcmLen (h : Hdr) : Nat := 576 * h.ngr * 4

/-- The granules and the coded channels of a frame, in order (10_state R31). -/
def Hdr.granules (h : Hdr) : List (Fin 2) := if h.ngr = 1 then [0] else [0, 1]

def Hdr.channels (h : Hdr) : List (Fin 2) := if h.nch = 1 then [0] else [0, 1]

/-- The record's type (30_encoding R93): the operand sequences are at most their nominal sizes (U6). -/
def FrameRec.wf (r : FrameRec) : Bool :=
  r.siImage.length ≤ r.hdr.siSize && r.main.length ≤ r.hdr.mainSize.toNat

end Sys2Proof
end

