-- ==== Sys2Proof/WellFormed.lean ====
section
/-! DEFINITION. Which terms of `Instr` are instructions: the operand ranges the spec gives (30_encoding, 42_huffman) and
the sizes the port's encoding has room for (log 2). What `exec` does with another term is the model's (log 46). -/

namespace Sys2Proof

/-- A frame record the port can carry: its type (30_encoding R93, U6). -/
def wfFrame (r : FrameRec) : Bool := r.wf

/-- An operand byte sequence the port can carry: a length of 16 bits (log 2). -/
def wfBytes (bs : List Byte) : Bool := bs.length < 65536

/-- A bit position the port can carry: 32 bits, where 10_state R27 derives 15 (log 2). -/
def wfPos (p : Nat) : Bool := p < 4294967296

/-- A quantized value: magnitude at most 8206 (43_requantize_reorder R191). -/
def wfQuant (q : BitVec 16) : Bool := q.toInt.natAbs ≤ 8206

/-- Sign bits only for the non-zero elements (30_encoding R103). -/
def wfSigns (v neg : BitVec 4) : Bool := neg &&& ~~~v == 0#4

/-- One element of a pair item: below `dim`, escape bits only after 15 in a table that has them and only as many as it
has, a sign only for a magnitude above 0 (30_encoding R102, 42_huffman R169). -/
def wfPairElem (t x0 lin : Nat) (neg : Bool) : Bool :=
  (x0 < pairDim t || (t == 0 && x0 == 0)) &&
  (if 0 < linbits t ∧ x0 = 15 then decide (lin < 2 ^ linbits t) else lin == 0) &&
  (!neg || decide (0 < pairMagnitude t x0 lin))

def Instr.wf : Instr → Bool
  | .frame r => wfFrame r
  | .loadsi image => image.length < 256
  | .bcSetpos p => wfPos p
  | .rsvRecv main => wfBytes main
  | .rsvAppend main => wfBytes main
  | .rsvSplice main => wfBytes main
  | .hufGranule _ _ p => wfPos p
  | .hufCnt1 _ _ p => wfPos p
  | .reqL _ _ q _ => wfQuant q
  | .reqS _ _ q _ _ => wfQuant q
  | .imdctL _ bt => bt != .short
  | .prime k frames => decide (1 ≤ k) && decide (k < frames.length) && decide (frames.length < 65536) && frames.all wfFrame
  | .pairItem t x0 y0 linX linY negX negY =>
      !reservedTable t.toNat && wfPairElem t.toNat x0.toNat linX.toNat negX && wfPairElem t.toNat y0.toNat linY.toNat negY
  | .quadItem _ value neg => wfSigns value neg
  | .quadA0001 neg => wfSigns 0b0001#4 neg
  | .quadA0010 neg => wfSigns 0b0010#4 neg
  | .quadA0011 neg => wfSigns 0b0011#4 neg
  | .quadA0100 neg => wfSigns 0b0100#4 neg
  | .quadA0101 neg => wfSigns 0b0101#4 neg
  | .quadA0110 neg => wfSigns 0b0110#4 neg
  | .quadA0111 neg => wfSigns 0b0111#4 neg
  | .quadA1000 neg => wfSigns 0b1000#4 neg
  | .quadA1001 neg => wfSigns 0b1001#4 neg
  | .quadA1010 neg => wfSigns 0b1010#4 neg
  | .quadA1011 neg => wfSigns 0b1011#4 neg
  | .quadA1100 neg => wfSigns 0b1100#4 neg
  | .quadA1101 neg => wfSigns 0b1101#4 neg
  | .quadA1110 neg => wfSigns 0b1110#4 neg
  | .quadA1111 neg => wfSigns 0b1111#4 neg
  | .quadB0001 neg => wfSigns 0b0001#4 neg
  | .quadB0010 neg => wfSigns 0b0010#4 neg
  | .quadB0011 neg => wfSigns 0b0011#4 neg
  | .quadB0100 neg => wfSigns 0b0100#4 neg
  | .quadB0101 neg => wfSigns 0b0101#4 neg
  | .quadB0110 neg => wfSigns 0b0110#4 neg
  | .quadB0111 neg => wfSigns 0b0111#4 neg
  | .quadB1000 neg => wfSigns 0b1000#4 neg
  | .quadB1001 neg => wfSigns 0b1001#4 neg
  | .quadB1010 neg => wfSigns 0b1010#4 neg
  | .quadB1011 neg => wfSigns 0b1011#4 neg
  | .quadB1100 neg => wfSigns 0b1100#4 neg
  | .quadB1101 neg => wfSigns 0b1101#4 neg
  | .quadB1110 neg => wfSigns 0b1110#4 neg
  | .quadB1111 neg => wfSigns 0b1111#4 neg
  | .idle | .reset | .bcRead _ | .bcPos | .rsvCheck | .scfClear | .scfM1 _ _ | .scfM2 _ | .hufBig _ _ | .hufPair _
  | .hufQuad _ | .req _ _ | .reord _ _ | .stereo _ | .antialias _ _ | .hyb _ _ | .finv _ _ | .synth _ _
  | .pcmPack _ _ _ _ _ | .stMs _ _ | .stIs _ _ | .imdctS _ | .ola _ _ _ _ | .pcmConvert _ | .getBits _
  | .siGroupM1Ws1 _ _ _ _ _ _ _ | .siGroupM1Ws0 _ _ _ _ _ _ _ | .siGroupLsfWs1 _ _ _ _ _ | .siGroupLsfWs0 _ _ _ _ _
  | .siHeadM1Mono _ _ _ | .siHeadM1Stereo _ _ _ _ | .siHeadLsfMono _ _ | .siHeadLsfStereo _ _ | .header _
  | .scfFieldM1 _ _ _ | .scfFieldM2 _ _ | .quadA0000 | .quadB0000
  | .pairOne00 | .pairOne01 _ | .pairOne10 _ | .pairOne11 _ _
  | .huffPair0 | .huffPair1 | .huffPair2 | .huffPair3 | .huffPair4 | .huffPair5 | .huffPair6 | .huffPair7
  | .huffPair8 | .huffPair9 | .huffPair10 | .huffPair11 | .huffPair12 | .huffPair13 | .huffPair14 | .huffPair15
  | .huffPair16 | .huffPair17 | .huffPair18 | .huffPair19 | .huffPair20 | .huffPair21 | .huffPair22 | .huffPair23
  | .huffPair24 | .huffPair25 | .huffPair26 | .huffPair27 | .huffPair28 | .huffPair29 | .huffPair30 | .huffPair31
  | .causeFrameSize | .causeMainSize | .causeBitsOverrun | .causeScfCount | .causeHuffTableReserved | .causeHuffIllegal
  | .causeLineRange | .causeRegionRange | .causeStereoBlockMismatch | .causeSiTruncated | .causeMainTruncated
  | .causeRsvInsufficient => true

end Sys2Proof
end

