-- ==== Sys2Proof/Decode.lean ====
section
/-! DEFINITION. From bytes to an instruction, and back (log 1 to 3).

What the port carries (log 2): an OPID byte `00oooooo` (30_encoding R91, R92) and the operation's operands; or, for a row
of the opcode table that has no OPID, a context byte and then the row's own bits exactly as the spec writes them (the
side-information image, a codeword with its sign bits, a cause code); or a frame header, known by its 11 sync bits. Multi-byte
numbers are big-endian and bit fields are read most significant bit first (20_memory R64). Reserved bits and codes are rejected
by name. -/

namespace Sys2Proof

/-- Why bytes are no instruction. -/
inductive DecodeError where
  /-- There is no byte at all. -/
  | empty
  /-- The bytes end inside the instruction. -/
  | truncated
  /-- An OPID that 30_encoding R92 leaves unassigned, or a context byte the port does not define. -/
  | unassigned (code : Byte)
  /-- An operand outside its range. -/
  | operandRange
  /-- A bit that must be 0. -/
  | reservedBits
  /-- Bits that are no codeword of the book (30_encoding R106). -/
  | noCodeword
  /-- A cause code that 60_exceptions R287 leaves unassigned. -/
  | unassignedCause (code : Byte)
  /-- A frame record outside the record's type (30_encoding R93, U6). -/
  | recordType
  deriving DecidableEq, Repr

/-! ### Bits and bytes -/

/-- The bits of a byte sequence in reading order (00_scope R9). -/
def bitsOf : List Byte → List Bool
  | [] => []
  | b :: bs => (List.range 8).map (fun i => b.getMsbD i) ++ bitsOf bs

/-- Bits packed into bytes, most significant first; the last byte is filled up with zeros. -/
def packBits : List Bool → List Byte
  | a :: b :: c :: d :: e :: f :: g :: h :: rest => BitVec.ofNat 8 (bitsNat [a, b, c, d, e, f, g, h]) :: packBits rest
  | [] => []
  | part => [BitVec.ofNat 8 (bitsNat (part ++ List.replicate (8 - part.length) false))]

/-- The bits of a word, most significant first. -/
def wordBits {w : Nat} (v : BitVec w) : List Bool := natBits w v.toNat

/-- The next `w` bits as a number (the local cursor of 30_encoding R96). -/
def takeWord (w : Nat) (bs : List Bool) : Option (BitVec w × List Bool) :=
  if w ≤ bs.length then some (BitVec.ofNat w (bitsNat (bs.take w)), bs.drop w) else none

/-- The next bit. -/
def takeFlag : List Bool → Option (Bool × List Bool)
  | b :: bs => some (b, bs)
  | [] => none

/-! ### The side-information layouts (30_encoding R96, R97) -/

/-- One `(gr, ch)` group as its bits give it, before the implicit fields of R98. -/
inductive SiGroup where
  | m1On (h : GroupHead) (sfc : BitVec 4) (w : SwitchOn) (preflag : Bool) (t : GroupTail)
  | m1Off (h : GroupHead) (sfc : BitVec 4) (w : SwitchOff) (preflag : Bool) (t : GroupTail)
  | lsfOn (h : GroupHead) (sfc : BitVec 9) (w : SwitchOn) (t : GroupTail)
  | lsfOff (h : GroupHead) (sfc : BitVec 9) (w : SwitchOff) (t : GroupTail)
  deriving DecidableEq, Repr

def takeGroupHead (bs : List Bool) : Option (GroupHead × List Bool) := do
  let (p, bs) ← takeWord 12 bs
  let (b, bs) ← takeWord 9 bs
  let (g, bs) ← takeWord 8 bs
  return (⟨p, b, g⟩, bs)

def takeSwitchOn (bs : List Bool) : Option (SwitchOn × List Bool) := do
  let (t, bs) ← takeWord 2 bs
  let (m, bs) ← takeFlag bs
  let (u, bs) ← takeWord 5 bs
  let (v, bs) ← takeWord 5 bs
  let (x, bs) ← takeWord 3 bs
  let (y, bs) ← takeWord 3 bs
  let (z, bs) ← takeWord 3 bs
  return (⟨BlockType.ofBits t, m, u, v, x, y, z⟩, bs)

def takeSwitchOff (bs : List Bool) : Option (SwitchOff × List Bool) := do
  let (u, bs) ← takeWord 5 bs
  let (v, bs) ← takeWord 5 bs
  let (w, bs) ← takeWord 5 bs
  let (r, bs) ← takeWord 4 bs
  let (k, bs) ← takeWord 3 bs
  return (⟨u, v, w, r, k⟩, bs)

def takeGroupTail (bs : List Bool) : Option (GroupTail × List Bool) := do
  let (s, bs) ← takeFlag bs
  let (q, bs) ← takeFlag bs
  return (⟨s, q⟩, bs)

/-- The 59-bit group (30_encoding R96). -/
def takeGroupM1 (bs : List Bool) : Option (SiGroup × List Bool) := do
  let (h, bs) ← takeGroupHead bs
  let (c, bs) ← takeWord 4 bs
  let (on, bs) ← takeFlag bs
  if on then
    let (w, bs) ← takeSwitchOn bs
    let (f, bs) ← takeFlag bs
    let (t, bs) ← takeGroupTail bs
    return (.m1On h c w f t, bs)
  else
    let (w, bs) ← takeSwitchOff bs
    let (f, bs) ← takeFlag bs
    let (t, bs) ← takeGroupTail bs
    return (.m1Off h c w f t, bs)

/-- The 63-bit group (30_encoding R97). -/
def takeGroupLsf (bs : List Bool) : Option (SiGroup × List Bool) := do
  let (h, bs) ← takeGroupHead bs
  let (c, bs) ← takeWord 9 bs
  let (on, bs) ← takeFlag bs
  if on then
    let (w, bs) ← takeSwitchOn bs
    let (t, bs) ← takeGroupTail bs
    return (.lsfOn h c w t, bs)
  else
    let (w, bs) ← takeSwitchOff bs
    let (t, bs) ← takeGroupTail bs
    return (.lsfOff h c w t, bs)

def groupHeadBits (h : GroupHead) : List Bool := wordBits h.part23Length ++ wordBits h.bigValues ++ wordBits h.globalGain

def switchOnBits (w : SwitchOn) : List Bool :=
  wordBits w.blockType.toBits ++ [w.mixed] ++ wordBits w.table0 ++ wordBits w.table1 ++ wordBits w.gain0 ++ wordBits w.gain1 ++
    wordBits w.gain2

def switchOffBits (w : SwitchOff) : List Bool :=
  wordBits w.table0 ++ wordBits w.table1 ++ wordBits w.table2 ++ wordBits w.region0 ++ wordBits w.region1

def groupTailBits (t : GroupTail) : List Bool := [t.scalefacScale, t.count1Table]

/-- A group's bits (30_encoding R96, R97). -/
def siGroupBits : SiGroup → List Bool
  | .m1On h c w f t => groupHeadBits h ++ wordBits c ++ [true] ++ switchOnBits w ++ [f] ++ groupTailBits t
  | .m1Off h c w f t => groupHeadBits h ++ wordBits c ++ [false] ++ switchOffBits w ++ [f] ++ groupTailBits t
  | .lsfOn h c w t => groupHeadBits h ++ wordBits c ++ [true] ++ switchOnBits w ++ groupTailBits t
  | .lsfOff h c w t => groupHeadBits h ++ wordBits c ++ [false] ++ switchOffBits w ++ groupTailBits t

/-- The instruction a group stands for. -/
def siGroupInstr (gr ch : Fin 2) : SiGroup → Instr
  | .m1On h c w f t => .siGroupM1Ws1 gr ch h c w f t
  | .m1Off h c w f t => .siGroupM1Ws0 gr ch h c w f t
  | .lsfOn h c w t => .siGroupLsfWs1 ch h c w t
  | .lsfOff h c w t => .siGroupLsfWs0 ch h c w t

/-- The frame-level fields before the groups (30_encoding R96 rows 1 to 3, R97). -/
inductive SiHead where
  | m1Mono (mdb : BitVec 9) (priv : BitVec 5) (scfsi0 : BitVec 4)
  | m1Stereo (mdb : BitVec 9) (priv : BitVec 3) (scfsi0 scfsi1 : BitVec 4)
  | lsfMono (mdb : BitVec 8) (priv : BitVec 1)
  | lsfStereo (mdb : BitVec 8) (priv : BitVec 2)
  deriving DecidableEq, Repr

def takeHeadM1Mono (bs : List Bool) : Option (SiHead × List Bool) := do
  let (d, bs) ← takeWord 9 bs
  let (p, bs) ← takeWord 5 bs
  let (a, bs) ← takeWord 4 bs
  return (.m1Mono d p a, bs)

def takeHeadM1Stereo (bs : List Bool) : Option (SiHead × List Bool) := do
  let (d, bs) ← takeWord 9 bs
  let (p, bs) ← takeWord 3 bs
  let (a, bs) ← takeWord 4 bs
  let (e, bs) ← takeWord 4 bs
  return (.m1Stereo d p a e, bs)

def takeHeadLsfMono (bs : List Bool) : Option (SiHead × List Bool) := do
  let (d, bs) ← takeWord 8 bs
  let (p, bs) ← takeWord 1 bs
  return (.lsfMono d p, bs)

def takeHeadLsfStereo (bs : List Bool) : Option (SiHead × List Bool) := do
  let (d, bs) ← takeWord 8 bs
  let (p, bs) ← takeWord 2 bs
  return (.lsfStereo d p, bs)

/-- The bits of the frame-level fields (30_encoding R96 rows 1 to 3, R97). -/
def siHeadBits : SiHead → List Bool
  | .m1Mono d p a => wordBits d ++ wordBits p ++ wordBits a
  | .m1Stereo d p a e => wordBits d ++ wordBits p ++ wordBits a ++ wordBits e
  | .lsfMono d p => wordBits d ++ wordBits p
  | .lsfStereo d p => wordBits d ++ wordBits p

/-- The instruction a head stands for. -/
def siHeadInstr : SiHead → Instr
  | .m1Mono d p a => .siHeadM1Mono d p a
  | .m1Stereo d p a e => .siHeadM1Stereo d p a e
  | .lsfMono d p => .siHeadLsfMono d p
  | .lsfStereo d p => .siHeadLsfStereo d p

/-- The 32-bit frame header, bit 31 first (30_encoding R94). The caller has seen the 11 sync bits. -/
def takeHeader (bs : List Bool) : Option (Instr × List Bool) := do
  let (_, bs) ← takeWord 11 bs
  let (v, bs) ← takeWord 2 bs
  let (l, bs) ← takeWord 2 bs
  let (p, bs) ← takeFlag bs
  let (b, bs) ← takeWord 4 bs
  let (f, bs) ← takeWord 2 bs
  let (a, bs) ← takeFlag bs
  let (r, bs) ← takeFlag bs
  let (m, bs) ← takeWord 2 bs
  let (e, bs) ← takeWord 2 bs
  let (c, bs) ← takeFlag bs
  let (o, bs) ← takeFlag bs
  let (x, bs) ← takeWord 2 bs
  return (.header ⟨v, l, p, b, f, a, r, ChannelMode.ofBits m, e, c, o, x⟩, bs)

def headerBits (h : HeaderWord) : List Bool :=
  List.replicate 11 true ++ wordBits h.version ++ wordBits h.layer ++ [h.protection] ++ wordBits h.bitrate ++
    wordBits h.sfreq ++ [h.padding, h.privateBit] ++ wordBits h.mode.toBits ++ wordBits h.modeExt ++
    [h.copyright, h.original] ++ wordBits h.emphasis

/-! ### Codewords (42_huffman R170, R178) -/

/-- The first entry of the book whose codeword the bits begin with, with the rest of the bits (30_encoding R106). -/
def takeCodeword {α : Type} (b : Book α) (bs : List Bool) : Option (α × List Bool) :=
  (b.find? fun e => e.1.isPrefixOf bs).map fun e => (e.2, bs.drop e.1.length)

/-- The sign bits of the elements `is` (as bit numbers of `v`) that are non-zero, in that order. -/
def takeSigns (v : BitVec 4) : List Nat → List Bool → Option (BitVec 4 × List Bool)
  | [], bs => some (0#4, bs)
  | i :: is, bs =>
    if v.getLsbD i then
      match bs with
      | [] => none
      | b :: rest => (takeSigns v is rest).map fun r => (r.1 ||| (if b then BitVec.twoPow 4 i else 0#4), r.2)
    else takeSigns v is bs

/-- The codeword row of book `q` and value `v`, with its sign bits. -/
def quadInstr (q : Bool) (v neg : BitVec 4) : Instr :=
  match q, v.toNat with
  | false, 0 => .quadA0000
  | false, 1 => .quadA0001 neg
  | false, 2 => .quadA0010 neg
  | false, 3 => .quadA0011 neg
  | false, 4 => .quadA0100 neg
  | false, 5 => .quadA0101 neg
  | false, 6 => .quadA0110 neg
  | false, 7 => .quadA0111 neg
  | false, 8 => .quadA1000 neg
  | false, 9 => .quadA1001 neg
  | false, 10 => .quadA1010 neg
  | false, 11 => .quadA1011 neg
  | false, 12 => .quadA1100 neg
  | false, 13 => .quadA1101 neg
  | false, 14 => .quadA1110 neg
  | false, _ => .quadA1111 neg
  | true, 0 => .quadB0000
  | true, 1 => .quadB0001 neg
  | true, 2 => .quadB0010 neg
  | true, 3 => .quadB0011 neg
  | true, 4 => .quadB0100 neg
  | true, 5 => .quadB0101 neg
  | true, 6 => .quadB0110 neg
  | true, 7 => .quadB0111 neg
  | true, 8 => .quadB1000 neg
  | true, 9 => .quadB1001 neg
  | true, 10 => .quadB1010 neg
  | true, 11 => .quadB1011 neg
  | true, 12 => .quadB1100 neg
  | true, 13 => .quadB1101 neg
  | true, 14 => .quadB1110 neg
  | true, _ => .quadB1111 neg

/-- The codeword row of pair table 1 for `(x0, y0)`, with its sign bits from the stream. -/
def pairOneInstr (v : Nat × Nat) (bs : List Bool) : Option (Instr × List Bool) :=
  match v, bs with
  | (0, 0), bs => some (.pairOne00, bs)
  | (0, _), s :: bs => some (.pairOne01 s, bs)
  | (_, 0), s :: bs => some (.pairOne10 s, bs)
  | (_, _), s :: s' :: bs => some (.pairOne11 s s', bs)
  | _, _ => none

/-- The codebook row of table `t` (42_huffman R169, R177). -/
def huffPairInstr (t : BitVec 5) : Instr :=
  match t.toNat with
  | 0 => .huffPair0
  | 1 => .huffPair1
  | 2 => .huffPair2
  | 3 => .huffPair3
  | 4 => .huffPair4
  | 5 => .huffPair5
  | 6 => .huffPair6
  | 7 => .huffPair7
  | 8 => .huffPair8
  | 9 => .huffPair9
  | 10 => .huffPair10
  | 11 => .huffPair11
  | 12 => .huffPair12
  | 13 => .huffPair13
  | 14 => .huffPair14
  | 15 => .huffPair15
  | 16 => .huffPair16
  | 17 => .huffPair17
  | 18 => .huffPair18
  | 19 => .huffPair19
  | 20 => .huffPair20
  | 21 => .huffPair21
  | 22 => .huffPair22
  | 23 => .huffPair23
  | 24 => .huffPair24
  | 25 => .huffPair25
  | 26 => .huffPair26
  | 27 => .huffPair27
  | 28 => .huffPair28
  | 29 => .huffPair29
  | 30 => .huffPair30
  | _ => .huffPair31

/-- The row of a cause code (60_exceptions R287). -/
def causeInstr (c : Byte) : Option Instr :=
  match c.toNat with
  | 0x01 => some .causeFrameSize
  | 0x02 => some .causeMainSize
  | 0x03 => some .causeBitsOverrun
  | 0x04 => some .causeScfCount
  | 0x05 => some .causeHuffTableReserved
  | 0x06 => some .causeHuffIllegal
  | 0x07 => some .causeLineRange
  | 0x08 => some .causeRegionRange
  | 0x09 => some .causeStereoBlockMismatch
  | 0x10 => some .causeSiTruncated
  | 0x11 => some .causeMainTruncated
  | 0x20 => some .causeRsvInsufficient
  | _ => none

/-! ### Readers of the port's bytes -/

/-- A reader: a value and the bytes after it, or why not. -/
abbrev Reader (α : Type) := List Byte → Except DecodeError (α × List Byte)

/-- The value `a`, no byte read. -/
def Reader.ret {α : Type} (a : α) : Reader α := fun bs => .ok (a, bs)

def Reader.fail {α : Type} (e : DecodeError) : Reader α := fun _ => .error e

/-- One reader, then the next. -/
def Reader.andThen {α β : Type} (p : Reader α) (k : α → Reader β) : Reader β := fun bs =>
  match p bs with
  | .ok (a, rest) => k a rest
  | .error e => .error e

def Reader.map {α β : Type} (p : Reader α) (f : α → β) : Reader β := p.andThen fun a => .ret (f a)

/-- The next byte. -/
def readByte : Reader Byte
  | b :: bs => .ok (b, bs)
  | [] => .error .truncated

/-- A big-endian number of `n` bytes. -/
def readNum : Nat → Reader Nat
  | 0 => .ret 0
  | n + 1 => readByte.andThen fun b => (readNum n).map fun v => b.toNat * 256 ^ n + v

/-- The next `k` bytes. -/
def readBytes (k : Nat) : Reader (List Byte) := fun bs =>
  if k ≤ bs.length then .ok (bs.take k, bs.drop k) else .error .truncated

/-- A one-byte number below `n`. -/
def readFin (n : Nat) : Reader (Fin n) := readByte.andThen fun b =>
  if h : b.toNat < n then .ret ⟨b.toNat, h⟩ else .fail .operandRange

/-- A granule and a channel in the two low bits of one byte. -/
def readGrCh : Reader (Fin 2 × Fin 2) := readByte.andThen fun b =>
  if b.toNat < 4 then .ret (if b.getLsbD 1 then 1 else 0, if b.getLsbD 0 then 1 else 0) else .fail .operandRange

/-- A flag in the low bit of one byte. -/
def readFlag : Reader Bool := (readFin 2).map fun v => v == 1

/-- One value of `F`: four bytes, most significant first. -/
def readF32 : Reader F32 := (readNum 4).map fun v => BitVec.ofNat 32 v

/-- `n` values of `F`. -/
def readF32s : (n : Nat) → Reader (List F32)
  | 0 => .ret []
  | n + 1 => readF32.andThen fun x => (readF32s n).map fun xs => x :: xs

def readBank (n : Nat) : Reader (Bank F32 n) := (readF32s n).map fun xs => Bank.tab n fun i => xs.getD i 0#32

/-- A byte sequence with its length in 16 bits before it. -/
def readBlock : Reader (List Byte) := (readNum 2).andThen readBytes

/-- `k` bytes read as bits by `p`; the bits left over must be 0. -/
def readBits {α : Type} (k : Nat) (p : List Bool → Option (α × List Bool)) : Reader α :=
  (readBytes k).andThen fun bs =>
    match p (bitsOf bs) with
    | some (a, rest) => if rest.all (!·) then .ret a else .fail .reservedBits
    | none => .fail .noCodeword

/-- `HDR.LSF`, `SFREQ`, `MODE`, `MODE_EXT`, `PROT` in one byte, then `FRAME_SIZE` in the first 12 bits of two
(30_encoding R93; the layout is the model's, log 2). -/
def takeHdr (bs : List Bool) : Option ((Bool × BitVec 2 × BitVec 2 × BitVec 2 × Bool × BitVec 12) × List Bool) := do
  let (lsf, bs) ← takeFlag bs
  let (sf, bs) ← takeWord 2 bs
  let (m, bs) ← takeWord 2 bs
  let (e, bs) ← takeWord 2 bs
  let (p, bs) ← takeFlag bs
  let (n, bs) ← takeWord 12 bs
  return ((lsf, sf, m, e, p, n), bs)

def readHdr : Reader Hdr := (readBits 3 takeHdr).andThen fun (lsf, sf, m, e, p, n) =>
  if h : sf.toNat < 3 then .ret ⟨lsf, ⟨sf.toNat, h⟩, ChannelMode.ofBits m, e, p, n⟩ else .fail .recordType

/-- The record of `FRAME` (30_encoding R93). -/
def readFrame : Reader FrameRec :=
  readHdr.andThen fun h => readBlock.andThen fun si => readBlock.andThen fun main =>
    if FrameRec.wf ⟨h, si, main⟩ then .ret ⟨h, si, main⟩ else .fail .recordType

def readFrames : (n : Nat) → Reader (List FrameRec)
  | 0 => .ret []
  | n + 1 => readFrame.andThen fun r => (readFrames n).map fun rs => r :: rs

/-- An instruction, rejected where it is not well formed. -/
def readWf (p : Reader Instr) : Reader Instr := p.andThen fun i => if i.wf then .ret i else .fail .operandRange

/-- What follows an OPID or context byte. -/
def readOperands (code : Byte) : Reader Instr :=
  match code.toNat with
  | 0x00 => .ret .idle
  | 0x01 => .ret .reset
  | 0x02 => readFrame.map .frame
  | 0x03 => (readNum 1).andThen fun n => (readBytes n).map .loadsi
  | 0x04 => (readFin 33).map .bcRead
  | 0x05 => .ret .bcPos
  | 0x06 => (readNum 4).map .bcSetpos
  | 0x08 => .ret .rsvCheck
  | 0x09 => readBlock.map .rsvRecv
  | 0x0A => readBlock.map .rsvAppend
  | 0x0B => readBlock.map .rsvSplice
  | 0x10 => .ret .scfClear
  | 0x11 => readGrCh.map fun g => .scfM1 g.1 g.2
  | 0x12 => (readFin 2).map .scfM2
  | 0x18 => readGrCh.andThen fun g => (readNum 4).map fun p => .hufGranule g.1 g.2 p
  | 0x19 => readGrCh.map fun g => .hufBig g.1 g.2
  | 0x1A => readGrCh.andThen fun g => (readNum 4).map fun p => .hufCnt1 g.1 g.2 p
  | 0x1B => (readFin 32).map fun t => .hufPair (BitVec.ofNat 5 t.val)
  | 0x1C => readFlag.map .hufQuad
  | 0x20 => readGrCh.map fun g => .req g.1 g.2
  | 0x21 => readGrCh.map fun g => .reord g.1 g.2
  | 0x22 => (readFin 2).map .stereo
  | 0x23 => readGrCh.map fun g => .antialias g.1 g.2
  | 0x24 => readGrCh.map fun g => .hyb g.1 g.2
  | 0x25 => readGrCh.map fun g => .finv g.1 g.2
  | 0x26 => readGrCh.map fun g => .synth g.1 g.2
  | 0x27 => readGrCh.andThen fun g => (readFin 18).andThen fun ss => (readFin 32).andThen fun i =>
      readF32.map fun x => .pcmPack g.1 ss i g.2 x
  -- element functions and pseudo-operations: context byte, operands
  | 0x40 => readWf (readGrCh.andThen fun g => (readNum 2).andThen fun q => (readFin 22).map fun b =>
      .reqL g.1 g.2 (BitVec.ofNat 16 q) b)
  | 0x41 => readWf (readGrCh.andThen fun g => (readNum 2).andThen fun q => (readFin 13).andThen fun b =>
      (readFin 3).map fun w => .reqS g.1 g.2 (BitVec.ofNat 16 q) b w)
  | 0x42 => readF32.andThen fun a => readF32.map fun b => .stMs a b
  | 0x43 => readF32.andThen fun m => (readFin 7).map fun p => .stIs m p
  | 0x44 => readWf ((readFin 4).andThen fun t => (readBank 18).map fun x =>
      .imdctL x (BlockType.ofBits (BitVec.ofNat 2 t.val)))
  | 0x45 => (readBank 18).map .imdctS
  | 0x46 => readGrCh.andThen fun g => (readFin 32).andThen fun sb => (readBank 36).map fun raw => .ola g.1 g.2 sb raw
  | 0x47 => readF32.map .pcmConvert
  | 0x48 => readWf ((readNum 2).andThen fun k => (readNum 2).andThen fun n => (readFrames n).map fun fs => .prime k fs)
  | 0x49 => (readFin 33).map .getBits
  -- the side-information image: a group for (gr, ch), or a prefix
  | 0x50 => readGrCh.andThen fun g => (readBits 8 takeGroupM1).map (siGroupInstr g.1 g.2)
  | 0x51 => (readFin 2).andThen fun ch => (readBits 8 takeGroupLsf).map (siGroupInstr 0 ch)
  | 0x52 => (readBits 3 takeHeadM1Mono).map siHeadInstr
  | 0x53 => (readBits 3 takeHeadM1Stereo).map siHeadInstr
  | 0x54 => (readBits 2 takeHeadLsfMono).map siHeadInstr
  | 0x55 => (readBits 2 takeHeadLsfStereo).map siHeadInstr
  -- items and fields of the main-data stream
  | 0x58 => readWf ((readFin 32).andThen fun t => (readFin 16).andThen fun x0 => (readFin 16).andThen fun y0 =>
      (readNum 2).andThen fun lx => (readNum 2).andThen fun ly => readFlag.andThen fun nx => readFlag.andThen fun ny =>
        if lx < 8192 ∧ ly < 8192 then
          .ret (.pairItem (BitVec.ofNat 5 t.val) (BitVec.ofNat 4 x0.val) (BitVec.ofNat 4 y0.val) (BitVec.ofNat 13 lx)
            (BitVec.ofNat 13 ly) nx ny)
        else .fail .operandRange)
  | 0x59 => readWf (readFlag.andThen fun q => (readFin 16).andThen fun v => (readFin 16).map fun n =>
      .quadItem q (BitVec.ofNat 4 v.val) (BitVec.ofNat 4 n.val))
  | 0x5A => readGrCh.andThen fun g => readFlag.map fun s => .scfFieldM1 g.1 g.2 s
  | 0x5B => (readFin 2).andThen fun ch => (readFin 4).map fun p => .scfFieldM2 ch p
  | 0x5C => readBits 2 fun bs => (takeCodeword quadBookA bs).bind fun e =>
      (takeSigns e.1 [3, 2, 1, 0] e.2).map fun s => (quadInstr false e.1 s.1, s.2)
  | 0x5D => readBits 2 fun bs => (takeCodeword quadBookB bs).bind fun e =>
      (takeSigns e.1 [3, 2, 1, 0] e.2).map fun s => (quadInstr true e.1 s.1, s.2)
  | 0x5E => readBits 1 fun bs => (takeCodeword pairBookOne bs).bind fun e => pairOneInstr e.1 e.2
  | 0x5F => (readFin 32).map fun t => huffPairInstr (BitVec.ofNat 5 t.val)
  | 0x60 => readByte.andThen fun c =>
      match causeInstr c with
      | some i => .ret i
      | none => .fail (.unassignedCause c)
  | _ => .fail (.unassigned code)

/-- Whether bytes begin with the 11 sync bits of a frame header (30_encoding R94). -/
def isHeader : List Byte → Bool
  | a :: b :: _ => a == 0xFF#8 && b.extractLsb' 5 3 == 7#3
  | _ => false

/-- The instruction the bytes begin with, and the bytes after it. -/
def decode (bs : List Byte) : Except DecodeError (Instr × List Byte) :=
  match bs with
  | [] => .error .empty
  | b :: rest => if isHeader bs then readBits 4 takeHeader bs else readOperands b rest

/-! ### The encoder -/

/-- A number as `n` bytes, most significant first. -/
def numBytes : Nat → Nat → List Byte
  | 0, _ => []
  | n + 1, v => BitVec.ofNat 8 (v / 256 ^ n) :: numBytes n v

def opByte (o : Opid) : Byte := o.code.setWidth 8

def grChByte (gr ch : Fin 2) : Byte := BitVec.ofNat 8 (2 * gr.val + ch.val)

def flagByte (b : Bool) : Byte := BitVec.ofNat 8 b.toNat

def f32Bytes (x : F32) : List Byte := numBytes 4 x.toNat

def bankBytes {n : Nat} (x : Bank F32 n) : List Byte := x.cells.flatMap f32Bytes

def blockBytes (bs : List Byte) : List Byte := numBytes 2 bs.length ++ bs

def hdrBits (h : Hdr) : List Bool :=
  [h.lsf] ++ natBits 2 h.sfreq.val ++ wordBits h.mode.toBits ++ wordBits h.modeExt ++ [h.prot] ++ wordBits h.frameSize

/-- Bits packed and filled up with zeros to `k` bytes. -/
def bitField (k : Nat) (bs : List Bool) : List Byte := packBits (bs ++ List.replicate (8 * k - bs.length) false)

def frameBytes (r : FrameRec) : List Byte := bitField 3 (hdrBits r.hdr) ++ blockBytes r.siImage ++ blockBytes r.main

/-- A codeword row of table A or B: context byte, codeword, sign bits (42_huffman R170, 30_encoding R103). -/
def quadBytes (q : Bool) (v neg : BitVec 4) : List Byte :=
  (if q then 0x5D#8 else 0x5C#8) :: bitField 2 (quadItemBits q v neg)

/-- A codeword row of pair table 1: context byte, codeword, sign bits (42_huffman R178, 30_encoding R102). -/
def pairOneBytes (x0 y0 : Nat) (negX negY : Bool) : List Byte :=
  0x5E#8 :: bitField 1 (pairItemBits 1 x0 y0 0 0 negX negY)

def huffPairBytes (t : Nat) : List Byte := [0x5F#8, BitVec.ofNat 8 t]

def causeBytes (c : Cause) : List Byte := [0x60#8, c.code]

/-- The bytes of a well-formed instruction. -/
def encode : Instr → List Byte
  | .idle => [opByte .idle]
  | .reset => [opByte .reset]
  | .frame r => opByte .frame :: frameBytes r
  | .loadsi image => opByte .loadsi :: numBytes 1 image.length ++ image
  | .bcRead n => [opByte .bcRead, BitVec.ofNat 8 n.val]
  | .bcPos => [opByte .bcPos]
  | .bcSetpos p => opByte .bcSetpos :: numBytes 4 p
  | .rsvCheck => [opByte .rsvCheck]
  | .rsvRecv main => opByte .rsvRecv :: blockBytes main
  | .rsvAppend main => opByte .rsvAppend :: blockBytes main
  | .rsvSplice main => opByte .rsvSplice :: blockBytes main
  | .scfClear => [opByte .scfClear]
  | .scfM1 gr ch => [opByte .scfM1, grChByte gr ch]
  | .scfM2 ch => [opByte .scfM2, BitVec.ofNat 8 ch.val]
  | .hufGranule gr ch p => opByte .hufGranule :: grChByte gr ch :: numBytes 4 p
  | .hufBig gr ch => [opByte .hufBig, grChByte gr ch]
  | .hufCnt1 gr ch p => opByte .hufCnt1 :: grChByte gr ch :: numBytes 4 p
  | .hufPair t => [opByte .hufPair, BitVec.ofNat 8 t.toNat]
  | .hufQuad q => [opByte .hufQuad, flagByte q]
  | .req gr ch => [opByte .req, grChByte gr ch]
  | .reord gr ch => [opByte .reord, grChByte gr ch]
  | .stereo gr => [opByte .stereo, BitVec.ofNat 8 gr.val]
  | .antialias gr ch => [opByte .antialias, grChByte gr ch]
  | .hyb gr ch => [opByte .hyb, grChByte gr ch]
  | .finv gr ch => [opByte .finv, grChByte gr ch]
  | .synth gr ch => [opByte .synth, grChByte gr ch]
  | .pcmPack gr ss i ch x =>
      opByte .pcmPack :: grChByte gr ch :: BitVec.ofNat 8 ss.val :: BitVec.ofNat 8 i.val :: f32Bytes x
  | .reqL gr ch q sfb => 0x40#8 :: grChByte gr ch :: numBytes 2 q.toNat ++ [BitVec.ofNat 8 sfb.val]
  | .reqS gr ch q sfb win => 0x41#8 :: grChByte gr ch :: numBytes 2 q.toNat ++ [BitVec.ofNat 8 sfb.val, BitVec.ofNat 8 win.val]
  | .stMs a b => 0x42#8 :: f32Bytes a ++ f32Bytes b
  | .stIs m p => 0x43#8 :: f32Bytes m ++ [BitVec.ofNat 8 p.val]
  | .imdctL x bt => 0x44#8 :: BitVec.ofNat 8 bt.toBits.toNat :: bankBytes x
  | .imdctS x => 0x45#8 :: bankBytes x
  | .ola gr ch sb raw => 0x46#8 :: grChByte gr ch :: BitVec.ofNat 8 sb.val :: bankBytes raw
  | .pcmConvert x => 0x47#8 :: f32Bytes x
  | .prime k frames => 0x48#8 :: numBytes 2 k ++ numBytes 2 frames.length ++ frames.flatMap frameBytes
  | .getBits n => [0x49#8, BitVec.ofNat 8 n.val]
  | .siGroupM1Ws1 gr ch h c w f t => 0x50#8 :: grChByte gr ch :: bitField 8 (siGroupBits (.m1On h c w f t))
  | .siGroupM1Ws0 gr ch h c w f t => 0x50#8 :: grChByte gr ch :: bitField 8 (siGroupBits (.m1Off h c w f t))
  | .siGroupLsfWs1 ch h c w t => 0x51#8 :: BitVec.ofNat 8 ch.val :: bitField 8 (siGroupBits (.lsfOn h c w t))
  | .siGroupLsfWs0 ch h c w t => 0x51#8 :: BitVec.ofNat 8 ch.val :: bitField 8 (siGroupBits (.lsfOff h c w t))
  | .siHeadM1Mono d p a => 0x52#8 :: bitField 3 (siHeadBits (.m1Mono d p a))
  | .siHeadM1Stereo d p a e => 0x53#8 :: bitField 3 (siHeadBits (.m1Stereo d p a e))
  | .siHeadLsfMono d p => 0x54#8 :: bitField 2 (siHeadBits (.lsfMono d p))
  | .siHeadLsfStereo d p => 0x55#8 :: bitField 2 (siHeadBits (.lsfStereo d p))
  | .header h => packBits (headerBits h)
  | .pairItem t x0 y0 lx ly nx ny =>
      0x58#8 :: BitVec.ofNat 8 t.toNat :: BitVec.ofNat 8 x0.toNat :: BitVec.ofNat 8 y0.toNat ::
        numBytes 2 lx.toNat ++ numBytes 2 ly.toNat ++ [flagByte nx, flagByte ny]
  | .quadItem q v n => [0x59#8, flagByte q, BitVec.ofNat 8 v.toNat, BitVec.ofNat 8 n.toNat]
  | .scfFieldM1 gr ch s => [0x5A#8, grChByte gr ch, flagByte s]
  | .scfFieldM2 ch p => [0x5B#8, BitVec.ofNat 8 ch.val, BitVec.ofNat 8 p.val]
  | .quadA0000 => quadBytes false 0b0000#4 0#4
  | .quadA0001 n => quadBytes false 0b0001#4 n
  | .quadA0010 n => quadBytes false 0b0010#4 n
  | .quadA0011 n => quadBytes false 0b0011#4 n
  | .quadA0100 n => quadBytes false 0b0100#4 n
  | .quadA0101 n => quadBytes false 0b0101#4 n
  | .quadA0110 n => quadBytes false 0b0110#4 n
  | .quadA0111 n => quadBytes false 0b0111#4 n
  | .quadA1000 n => quadBytes false 0b1000#4 n
  | .quadA1001 n => quadBytes false 0b1001#4 n
  | .quadA1010 n => quadBytes false 0b1010#4 n
  | .quadA1011 n => quadBytes false 0b1011#4 n
  | .quadA1100 n => quadBytes false 0b1100#4 n
  | .quadA1101 n => quadBytes false 0b1101#4 n
  | .quadA1110 n => quadBytes false 0b1110#4 n
  | .quadA1111 n => quadBytes false 0b1111#4 n
  | .quadB0000 => quadBytes true 0b0000#4 0#4
  | .quadB0001 n => quadBytes true 0b0001#4 n
  | .quadB0010 n => quadBytes true 0b0010#4 n
  | .quadB0011 n => quadBytes true 0b0011#4 n
  | .quadB0100 n => quadBytes true 0b0100#4 n
  | .quadB0101 n => quadBytes true 0b0101#4 n
  | .quadB0110 n => quadBytes true 0b0110#4 n
  | .quadB0111 n => quadBytes true 0b0111#4 n
  | .quadB1000 n => quadBytes true 0b1000#4 n
  | .quadB1001 n => quadBytes true 0b1001#4 n
  | .quadB1010 n => quadBytes true 0b1010#4 n
  | .quadB1011 n => quadBytes true 0b1011#4 n
  | .quadB1100 n => quadBytes true 0b1100#4 n
  | .quadB1101 n => quadBytes true 0b1101#4 n
  | .quadB1110 n => quadBytes true 0b1110#4 n
  | .quadB1111 n => quadBytes true 0b1111#4 n
  | .pairOne00 => pairOneBytes 0 0 false false
  | .pairOne01 ny => pairOneBytes 0 1 false ny
  | .pairOne10 nx => pairOneBytes 1 0 nx false
  | .pairOne11 nx ny => pairOneBytes 1 1 nx ny
  | .huffPair0 => huffPairBytes 0
  | .huffPair1 => huffPairBytes 1
  | .huffPair2 => huffPairBytes 2
  | .huffPair3 => huffPairBytes 3
  | .huffPair4 => huffPairBytes 4
  | .huffPair5 => huffPairBytes 5
  | .huffPair6 => huffPairBytes 6
  | .huffPair7 => huffPairBytes 7
  | .huffPair8 => huffPairBytes 8
  | .huffPair9 => huffPairBytes 9
  | .huffPair10 => huffPairBytes 10
  | .huffPair11 => huffPairBytes 11
  | .huffPair12 => huffPairBytes 12
  | .huffPair13 => huffPairBytes 13
  | .huffPair14 => huffPairBytes 14
  | .huffPair15 => huffPairBytes 15
  | .huffPair16 => huffPairBytes 16
  | .huffPair17 => huffPairBytes 17
  | .huffPair18 => huffPairBytes 18
  | .huffPair19 => huffPairBytes 19
  | .huffPair20 => huffPairBytes 20
  | .huffPair21 => huffPairBytes 21
  | .huffPair22 => huffPairBytes 22
  | .huffPair23 => huffPairBytes 23
  | .huffPair24 => huffPairBytes 24
  | .huffPair25 => huffPairBytes 25
  | .huffPair26 => huffPairBytes 26
  | .huffPair27 => huffPairBytes 27
  | .huffPair28 => huffPairBytes 28
  | .huffPair29 => huffPairBytes 29
  | .huffPair30 => huffPairBytes 30
  | .huffPair31 => huffPairBytes 31
  | .causeFrameSize => causeBytes .frameSize
  | .causeMainSize => causeBytes .mainSize
  | .causeBitsOverrun => causeBytes .bitsOverrun
  | .causeScfCount => causeBytes .scfCount
  | .causeHuffTableReserved => causeBytes .huffTableReserved
  | .causeHuffIllegal => causeBytes .huffIllegal
  | .causeLineRange => causeBytes .lineRange
  | .causeRegionRange => causeBytes .regionRange
  | .causeStereoBlockMismatch => causeBytes .stereoBlockMismatch
  | .causeSiTruncated => causeBytes .siTruncated
  | .causeMainTruncated => causeBytes .mainTruncated
  | .causeRsvInsufficient => causeBytes .rsvInsufficient

/-! ### The opcode table's words -/

/-- The bytes of a table word: a word of `nbits` bits (whole bytes) stored most significant byte first, then zeros up to the
longest instruction of fixed length (log 2). -/
def tableBytes (nbits w : Nat) : List Byte := numBytes (nbits / 8) w ++ List.replicate 160 0#8

/-- The instruction the decoder reads from a row's word. -/
def decodeTableWord (nbits w : Nat) : Option Instr :=
  match decode (tableBytes nbits w) with
  | .ok (i, _) => some i
  | .error _ => none

end Sys2Proof
end

