-- ==== Sys2Proof/Machine/State.lean ====
section
/-! DEFINITION. The state of the RSU (10_state R20), as plain data, and its value after reset (10_state R43). -/

namespace Sys2Proof.Machine

/-- `SEQ = (op, gr, ch)` (10_state R26). -/
structure SeqPos where
  op : Opid
  gr : Fin 2
  ch : Fin 2
  deriving DecidableEq, Repr

/-- `STATUS` (10_state R28). -/
structure Status where
  fault : Bool
  skip : Bool
  pcmValid : Bool
  deriving DecidableEq, Repr

/-- The side-information registers of one granule and channel (10_state R33, R34). -/
structure Gran where
  part23Length : BitVec 12
  bigValues : BitVec 9
  globalGain : BitVec 8
  scalefacCompress : BitVec 9
  winSwitch : Bool
  blockType : BlockType
  mixed : Bool
  table0 : BitVec 5
  table1 : BitVec 5
  table2 : BitVec 5
  gain0 : BitVec 3
  gain1 : BitVec 3
  gain2 : BitVec 3
  region0 : BitVec 4
  region1 : BitVec 4
  preflag : Bool
  scalefacScale : Bool
  count1Table : Bool
  count1 : BitVec 10
  deriving DecidableEq, Repr

/-- The side-information registers `SI.*` (10_state R32, R33). Bit `k` of a channel's `scfsi`, counted from its most
significant bit, is `SI.SCFSI[ch][k]`. -/
structure SideInfo where
  mainDataBegin : BitVec 9
  priv : BitVec 5
  scfsi : Two (BitVec 4)
  gran : Two (Two Gran)
  deriving DecidableEq, Repr

/-- What a command returns (47_frame_control R270). -/
inductive CmdOutcome where
  | done
  | pcm (bytes : List Byte)
  | skipped (c : Cause)
  | formatError (c : Cause)
  | unexpectedEos (c : Cause)
  deriving DecidableEq, Repr

/-- What a value-returning operation returns: an unsigned number, line values, or values of `F`. -/
inductive Ret where
  | none
  | nat (n : Nat)
  | ints (l : List Int)
  | vals (l : List F32)
  deriving DecidableEq, Repr

/-- 576 spectral lines, or 32 x 18 subband samples, or 32 x 18 overlap values (10_state R21, R36). -/
abbrev Lines := Bank F32 576

/-- The synthesis history of one channel (10_state R37). -/
abbrev History := Bank F32 1024

/-- The contents of the addressed memory `PCM`: the bytes it holds, by address (20_memory R60). -/
abbrev Memory := List Host.Cell

/-- The state: every item of 10_state R20, then the model's own fields (log 14). -/
structure State where
  /-- `XR[gr][ch][i]`, R21. -/
  xr : Two (Two Lines)
  /-- `SCF_L[gr][ch][b]`, R22. -/
  scfL : Two (Two (Bank (BitVec 4) 22))
  /-- `SCF_S[gr][ch][b][win]` at index `3*b + win`, R23. -/
  scfS : Two (Two (Bank (BitVec 4) 39))
  /-- `SEQ`, R26. -/
  seq : SeqPos
  /-- `BITPOS`, R27. -/
  bitpos : Nat
  /-- `STATUS`, R28. -/
  status : Status
  /-- `CAUSE`, R29. -/
  cause : Cause
  /-- `WHERE`, R29. -/
  whr : SeqPos
  /-- `HDR.*`, R30. -/
  hdr : Hdr
  /-- `SI.*`, R32 to R34. -/
  si : SideInfo
  /-- `STORE[ch][sb][i]` at index `18*sb + i`, R36. -/
  store : Two Lines
  /-- `VVEC[ch][j]`, R37. -/
  vvec : Two History
  /-- `RSV`, R38; index 0 is the oldest byte. -/
  rsv : List Byte
  /-- `MD`, R39. -/
  md : List Byte
  /-- `PCM`, R40: the bytes written, by strictly rising address; an address not listed has no value (log 13). -/
  pcm : Memory
  /-- The model's own: bytes the host has sent and the sequencer has not taken (log 1). -/
  port : List Byte
  /-- The model's own: single operations may be applied as steps (30_encoding R107, the second notation); off, the port takes the host's
  commands alone (47_frame_control R265; log 4). -/
  bench : Bool
  /-- The model's own: the outcome the last command returned (R270). -/
  outcome : CmdOutcome
  /-- The model's own: the value the last value-returning operation returned. -/
  ret : Ret
  /-- The model's own: how many free values have been taken (log 14). -/
  free : Nat
  deriving DecidableEq, Repr

/-- The machine stops. -/
inductive Fault where
  /-- Raised by `step`: the port holds bytes that begin with no instruction's encoding. Safe: the hardware fetches no
  instruction and never sees such bytes (30_encoding R90, R91). -/
  | undecodable (e : DecodeError)
  deriving DecidableEq, Repr

/-- No meaning. -/
inductive Refusal where
  /-- Raised by `exec` alone, for an instruction without a meaning. Safe. -/
  | notModelled (mnemonic : String)
  /-- Raised by `FRAME` and `PRIME` on a record outside the record's type (30_encoding R93; U6: "refuse"), or on a frame
  index the host's list of records does not hold. Safe. -/
  | recordOutsideType
  /-- Raised by `step`, `bench` off, for an instruction the host cannot issue: "The host can issue exactly two commands ...
  There is no other way to change the state" (47_frame_control R265). Safe. -/
  | notACommand
  deriving DecidableEq, Repr

/-- `(IDLE, 0, 0)` (10_state R26). -/
def SeqPos.idle : SeqPos := ⟨.idle, 0, 0⟩

/-- All side-information registers of a granule and channel 0 (log 12). -/
def Gran.zero : Gran :=
  ⟨0, 0, 0, 0, false, .normal, false, 0, 0, 0, 0, 0, 0, 0, 0, false, false, false, 0⟩

def SideInfo.zero : SideInfo := ⟨0, 0, .both 0, .both (.both Gran.zero)⟩

def Hdr.zero : Hdr := ⟨false, 0, .stereo, 0, false, 0⟩

/-- A row of +0. -/
def zeros (n : Nat) : Bank F32 n := .tab n fun _ => 0#32

/-- The machine right after `RESET` (10_state R43): the values the spec states; every register it states none for is 0
or empty (DESIGN CHOICE, log 12). -/
def State.reset : State where
  xr := .both (.both (zeros 576))
  scfL := .both (.both (.tab 22 fun _ => 0))
  scfS := .both (.both (.tab 39 fun _ => 0))
  seq := .idle
  bitpos := 0
  status := ⟨false, false, false⟩
  cause := .noCause
  whr := .idle
  hdr := Hdr.zero
  si := SideInfo.zero
  store := .both (zeros 576)
  vvec := .both (zeros 1024)
  rsv := []
  md := []
  pcm := []
  port := []
  bench := false
  outcome := .done
  ret := .none
  free := 0

end Sys2Proof.Machine

namespace Sys2Proof

/-- Free values of `F`: for a register, the operand bytes of the command, the state (its counter `free` among it) and an
index (logs 10, 11). -/
opaque Config.anyF32 : Nat → List Byte → Machine.State → Nat → F32

/-- Free numbers, likewise. -/
opaque Config.anyNat : Nat → List Byte → Machine.State → Nat → Nat

/-- Free byte sequences, likewise. -/
opaque Config.anyBytes : Nat → List Byte → Machine.State → List Byte

end Sys2Proof
end

