-- ==== Sys2Proof/Machine/Flags.lean ====
section
/-! DEFINITION. The three flags of `STATUS` (10_state R28). There are no arithmetic flags: no operation sets or reads one. -/

namespace Sys2Proof.Machine

/-- The flags at the start of a `FRAME`: `SKIP` and `PCM_VALID` cleared (R28, 47_frame_control R266 step 2). -/
def Status.startFrame (f : Status) : Status := ⟨f.fault, false, false⟩

/-- The flags at the end of a `FRAME` whose outcome is `Pcm` (R28, 47_frame_control R266 step 11). -/
def Status.endPcm (f : Status) : Status := ⟨f.fault, f.skip, true⟩

/-- The flags after a raise (60_exceptions R286, R293): `Skipped` sets `SKIP`, the others set `FAULT` and leave `SKIP` 0;
`PCM_VALID` is 0. -/
def Status.raised (f : Status) : Exn → Status
  | .skipped => ⟨f.fault, true, false⟩
  | .formatError | .unexpectedEos => ⟨true, false, false⟩

/-- The flags after `RESET` (10_state R43). -/
def Status.clear : Status := ⟨false, false, false⟩

end Sys2Proof.Machine
end

