-- ==== Sys2Proof/Machine/Float32.lean ====
section
/-! DEFINITION. The default numeric type `F` (00_scope R7, D3): IEEE 754 binary32, every operation rounded once to nearest
even, no fused operation. Every finite value is an integer number of units `2^-149`, so each operation is computed exactly on
integers and rounded once. -/

namespace Sys2Proof.Machine

/-- Sign bit. -/
def fSign (x : F32) : Bool := x.getLsbD 31

/-- Biased exponent field. -/
def fExp (x : F32) : Nat := (x.extractLsb' 23 8).toNat

/-- Fraction field. -/
def fFrac (x : F32) : Nat := (x.extractLsb' 0 23).toNat

/-- Neither infinite nor not-a-number. -/
def fFinite (x : F32) : Bool := fExp x != 255

def fNan (x : F32) : Bool := fExp x == 255 && fFrac x != 0

/-- The magnitude of a finite value in units of `2^-149`. -/
def fUnits (x : F32) : Nat := if fExp x = 0 then fFrac x else (fFrac x + 2 ^ 23) * 2 ^ (fExp x - 1)

/-- A finite value in units of `2^-149`. -/
def fInt (x : F32) : Int := if fSign x then -(fUnits x : Int) else fUnits x

/-- The number of bits of `n`. -/
def bitLength (n : Nat) : Nat := if n = 0 then 0 else Nat.log2 n + 1

/-- The bits of an infinity. -/
def infBits : Nat := 0x7F800000

/-- A not-a-number. Its payload is the model's (log 5); 00_scope R7 and U14: none occurs with the default tables. -/
def fNaN : F32 := 0x7FC00000#32

/-- A sign and the 31 bits below it. -/
def fPack (neg : Bool) (mag : Nat) : F32 := BitVec.ofNat 32 (if neg then mag + 2 ^ 31 else mag)

/-- `n / 2^s` to the nearest integer, a tie to the even one. -/
def roundShift (n s : Nat) : Nat :=
  let m := n / 2 ^ s
  let r := n % 2 ^ s
  if 2 * r > 2 ^ s || (2 * r == 2 ^ s && m % 2 == 1) then m + 1 else m

/-- The magnitude `n * 2^-(149 + k)` rounded to binary32, nearest even: 24 bits, or fewer where the unit `2^-149` is
reached; past the largest finite value, infinity. -/
def roundMag (n k : Nat) : Nat :=
  let s := max k (bitLength n - 24)
  let bits := (s - k) * 2 ^ 23 + roundShift n s
  if bits ≥ infBits then infBits else bits

/-- The image in `F` of `± n * 2^-(149 + k)`. -/
def fRound (neg : Bool) (n k : Nat) : F32 := fPack neg (roundMag n k)

/-- Negation: the sign bit. -/
def fNeg (x : F32) : F32 := x ^^^ 0x80000000#32

/-- Addition. -/
def fAdd (x y : F32) : F32 :=
  if fNan x || fNan y then fNaN
  else if !fFinite x then (if !fFinite y && fSign x != fSign y then fNaN else x)
  else if !fFinite y then y
  else
    let s := fInt x + fInt y
    if s = 0 then fPack (fSign x && fSign y) 0 else fRound (decide (s < 0)) s.natAbs 0

/-- Subtraction. -/
def fSub (x y : F32) : F32 := fAdd x (fNeg y)

/-- Multiplication. -/
def fMul (x y : F32) : F32 :=
  let neg := fSign x != fSign y
  if fNan x || fNan y then fNaN
  else if !fFinite x || !fFinite y then
    (if fUnits x = 0 || fUnits y = 0 then fNaN else fPack neg infBits)
  else fRound neg (fUnits x * fUnits y) 149

/-- The image of an integer (00_scope R7(e)). -/
def fOfInt (n : Int) : F32 := if n = 0 then 0#32 else fRound (decide (n < 0)) (n.natAbs * 2 ^ 149) 0

/-- The integer a value is the image of, if it is one (00_scope R7(e), 10_state R21). -/
def fToInt (x : F32) : Option Int :=
  if fFinite x && fUnits x % 2 ^ 149 == 0 then some (fInt x / 2 ^ 149) else none

/-- The image of a positive real number given as `y * 2^-t` with `y` its integer part at that scale and `inexact` whether
anything is left below it; `y` has more than 25 bits. -/
def fReal (neg : Bool) (y t : Nat) (inexact : Bool) : F32 :=
  let n := 2 * y + inexact.toNat
  if t + 1 ≤ 149 then fRound neg (n * 2 ^ (149 - (t + 1))) 0 else fRound neg n (t + 1 - 149)

/-- The sum of `f 0, ..., f (n-1)` in that order, starting from 0 (00_scope R10). -/
def fSum (n : Nat) (f : Nat → F32) : F32 := (List.range n).foldl (fun acc i => fAdd acc (f i)) 0#32

/-- The largest `r` below `2^bits` with `r^k <= n`: the integer `k`-th root. -/
def iroot (k n : Nat) : (bits : Nat) → (acc : Nat) → Nat
  | 0, acc => acc
  | b + 1, acc => if (acc + 2 ^ b) ^ k ≤ n then iroot k n b (acc + 2 ^ b) else iroot k n b acc

end Sys2Proof.Machine
end

