-- ==== Sys2Proof/Machine/Tables.lean ====
section
/-! DEFINITION. The constant tables `TAB.*` (20_memory R70 to R81) at the spec's defaults. A table of reals holds the binary32
rounding of each exact value (D3; log 6): power and root tables are computed exactly on integers; the trigonometric tables
come from one quarter wave each, written out. -/

namespace Sys2Proof.Machine

/-- `TAB.POW43[k]`, the image of `k^(4/3)` (R71): `floor(k^(4/3) * 2^30)` as a cube root. -/
def pow43 (k : Nat) : F32 :=
  let n := k ^ 4 * 2 ^ 90
  let y := iroot 3 n 50 0
  if k = 0 then 0#32 else fReal false y 30 (y ^ 3 != n)

/-- `gain(e4)`, the image of `2^(e4/4)` (43_requantize_reorder R190), `e4` in -326..45: the fractional quarter as a fourth
root, the whole part as a power of 2. -/
def gain (e4 : Int) : F32 :=
  let n := 2 ^ (e4 % 4).toNat * 2 ^ 160
  let y := iroot 4 n 44 0
  fReal false y (40 - e4 / 4).toNat (y ^ 4 != n)

/-- `TAB.SFB_LONG[lsf][sfreq]` (R72). -/
def sfbLong (lsf : Bool) (sfreq : Fin 3) : List Nat :=
  match lsf, sfreq.val with
  | false, 0 => [0, 4, 8, 12, 16, 20, 24, 30, 36, 44, 52, 62, 74, 90, 110, 134, 162, 196, 238, 288, 342, 418, 576]
  | false, 1 => [0, 4, 8, 12, 16, 20, 24, 30, 36, 42, 50, 60, 72, 88, 106, 128, 156, 190, 230, 276, 330, 384, 576]
  | false, _ => [0, 4, 8, 12, 16, 20, 24, 30, 36, 44, 54, 66, 82, 102, 126, 156, 194, 240, 296, 364, 448, 550, 576]
  | true, 0 => [0, 6, 12, 18, 24, 30, 36, 44, 54, 66, 80, 96, 116, 140, 168, 200, 238, 284, 336, 396, 464, 522, 576]
  | true, 1 => [0, 6, 12, 18, 24, 30, 36, 44, 54, 66, 80, 96, 114, 136, 162, 194, 232, 278, 332, 394, 464, 540, 576]
  | true, _ => [0, 6, 12, 18, 24, 30, 36, 44, 54, 66, 80, 96, 116, 140, 168, 200, 238, 284, 336, 396, 464, 522, 576]

/-- `TAB.SFB_SHORT[lsf][sfreq]` (R72). -/
def sfbShort (lsf : Bool) (sfreq : Fin 3) : List Nat :=
  match lsf, sfreq.val with
  | false, 0 => [0, 4, 8, 12, 16, 22, 30, 40, 52, 66, 84, 106, 136, 192]
  | false, 1 => [0, 4, 8, 12, 16, 22, 28, 38, 50, 64, 80, 100, 126, 192]
  | false, _ => [0, 4, 8, 12, 16, 22, 30, 42, 58, 78, 104, 138, 180, 192]
  | true, 0 => [0, 4, 8, 12, 18, 24, 32, 42, 56, 74, 100, 132, 174, 192]
  | true, 1 => [0, 4, 8, 12, 18, 26, 36, 48, 62, 80, 104, 136, 180, 192]
  | true, _ => [0, 4, 8, 12, 18, 26, 36, 48, 62, 80, 104, 134, 174, 192]

/-- The band of line `i` in a row of band edges: the `b` with `row[b] <= i < row[b+1]` (R72). -/
def bandOf (row : List Nat) (i : Nat) : Nat := row.countP (· ≤ i) - 1

/-- Entry `b` of a row of band edges. -/
def edge (row : List Nat) (b : Nat) : Nat := row.getD b 0

/-- `TAB.PRETAB[b]` (R73). -/
def pretab (b : Nat) : Nat := [0, 0, 0, 0, 0, 0, 0, 0, 0, 0, 0, 1, 1, 1, 1, 2, 2, 3, 3, 3, 2, 0].getD b 0

/-- `TAB.SLEN[c] = (slen1, slen2)` (R74); above 15 a free pair of widths 0..4 (log 17). -/
def slen (c : Nat) : Nat × Nat :=
  if c < 16 then
    ([0, 0, 0, 0, 3, 1, 1, 1, 2, 2, 2, 3, 3, 3, 4, 4].getD c 0, [0, 1, 2, 3, 0, 1, 2, 3, 1, 2, 3, 1, 2, 3, 2, 3].getD c 0)
  else (min (Config.slenUnstated c).1 4, min (Config.slenUnstated c).2 4)

/-- An entry of `TAB.NSLEN2` (R75). -/
structure Nslen2 where
  slen : List Nat
  d : Nat
  preflag : Bool
  deriving DecidableEq, Repr

/-- `TAB.NSLEN2[c]` (R75). -/
def nslen2 (c : Nat) : Nslen2 :=
  if c < 400 then ⟨[c / 16 / 5, c / 16 % 5, c % 16 / 4, c % 4], 0, false⟩
  else if c < 500 then ⟨[(c - 400) / 4 / 5, (c - 400) / 4 % 5, (c - 400) % 4, 0], 1, false⟩
  else ⟨[(c - 500) / 3, (c - 500) % 3, 0, 0], 2, true⟩

/-- `TAB.SCF_PART[n][d][i]` (R75). -/
def scfPart (n d i : Nat) : Nat :=
  ((([[[6, 5, 5, 5], [6, 5, 7, 3], [11, 10, 0, 0]],
      [[9, 9, 9, 9], [9, 9, 12, 6], [18, 18, 0, 0]],
      [[6, 9, 9, 9], [6, 9, 12, 6], [15, 18, 0, 0]]] : List (List (List Nat))).getD n []).getD d []).getD i 0

/-- `TAB.IS_RATIO[p] = (ratio_l, ratio_r)` (R76): `t/(1+t)` and `1/(1+t)`, `t = tan(p*pi/12)`; `p = 6` is `(1, 0)`. -/
def isRatio (p : Nat) : F32 × F32 :=
  [ (0x00000000#32, 0x3F800000#32),   -- 0, 1
    (0x3E58658C#32, 0x3F49E69D#32),   -- (3 - sqrt 3)/6, (3 + sqrt 3)/6
    (0x3EBB67AF#32, 0x3F224C29#32),   -- (sqrt 3 - 1)/2, (3 - sqrt 3)/2
    (0x3F000000#32, 0x3F000000#32),   -- 1/2, 1/2
    (0x3F224C29#32, 0x3EBB67AF#32),
    (0x3F49E69D#32, 0x3E58658C#32),
    (0x3F800000#32, 0x00000000#32) ].getD p (0#32, 0#32)

/-- The image of the square root of `num/den`, a real in (0, 1]. -/
def sqrtRatio (neg : Bool) (num den : Nat) : F32 :=
  let n := num * 2 ^ 120 / den
  let y := iroot 2 n 61 0
  fReal neg y 60 (y * y * den != num * 2 ^ 120)

/-- `TAB.INV_SQRT2`, the image of `1/sqrt(2)` (44_stereo R215). -/
def invSqrt2 : F32 := sqrtRatio false 1 2

/-- The numbers `-c[i] * 10000` of 20_memory R77. -/
def aliasCoeff (i : Nat) : Nat := [6000, 5350, 3300, 1850, 950, 410, 142, 37].getD i 0

/-- `TAB.CS[i] = 1/sqrt(1 + c[i]^2)` (R77). -/
def tabCs (i : Nat) : F32 := sqrtRatio false (10000 ^ 2) (10000 ^ 2 + aliasCoeff i ^ 2)

/-- `TAB.CA[i] = c[i]/sqrt(1 + c[i]^2)` (R77); every `c[i]` is negative. -/
def tabCa (i : Nat) : F32 := sqrtRatio true (aliasCoeff i ^ 2) (10000 ^ 2 + aliasCoeff i ^ 2)

/-- The image of `cos(pi*j/72)`, `j` in 0..36 (log 6). -/
def cosQuarter72 (j : Nat) : F32 :=
  [ 0x3F800000#32, 0x3F7FC1A0#32, 0x3F7F069E#32, 0x3F7DCF55#32, 0x3F7C1C5C#32, 0x3F79EE89#32, 0x3F7746EA#32, 0x3F7426CB#32,
    0x3F708FB2#32, 0x3F6C835E#32, 0x3F6803CA#32, 0x3F631324#32, 0x3F5DB3D7#32, 0x3F57E880#32, 0x3F51B3F3#32, 0x3F4B1934#32,
    0x3F441B7D#32, 0x3F3CBE35#32, 0x3F3504F3#32, 0x3F2CF37B#32, 0x3F248DBB#32, 0x3F1BD7CA#32, 0x3F12D5E8#32, 0x3F098C78#32,
    0x3F000000#32, 0x3EEC6A50#32, 0x3ED8616C#32, 0x3EC3EF15#32, 0x3EAF1D44#32, 0x3E99F61C#32, 0x3E8483EE#32, 0x3E5DA259#32,
    0x3E31D0D4#32, 0x3E05A8A8#32, 0x3DB27EB6#32, 0x3D32AA3E#32, 0x00000000#32 ].getD j 0#32

/-- The image of `cos(pi*j/64)`, `j` in 0..32 (log 6). -/
def cosQuarter64 (j : Nat) : F32 :=
  [ 0x3F800000#32, 0x3F7FB10F#32, 0x3F7EC46D#32, 0x3F7D3AAC#32, 0x3F7B14BE#32, 0x3F7853F8#32, 0x3F74FA0B#32, 0x3F710908#32,
    0x3F6C835E#32, 0x3F676BD8#32, 0x3F61C598#32, 0x3F5B941A#32, 0x3F54DB31#32, 0x3F4D9F02#32, 0x3F45E403#32, 0x3F3DAEF9#32,
    0x3F3504F3#32, 0x3F2BEB4A#32, 0x3F226799#32, 0x3F187FC0#32, 0x3F0E39DA#32, 0x3F039C3D#32, 0x3EF15AEA#32, 0x3EDAE880#32,
    0x3EC3EF15#32, 0x3EAC7CD4#32, 0x3E94A031#32, 0x3E78CFCC#32, 0x3E47C5C2#32, 0x3E164083#32, 0x3DC8BD36#32, 0x3D48FB30#32,
    0x00000000#32 ].getD j 0#32

/-- `cos(pi*a/(2*q))` for every `a`, from its quarter wave `c` of `q + 1` entries. -/
def cosWave (q : Nat) (c : Nat → F32) (a : Nat) : F32 :=
  let r := a % (4 * q)
  if r ≤ q then c r
  else if r ≤ 2 * q then fNeg (c (2 * q - r))
  else if r < 3 * q then fNeg (c (r - 2 * q))
  else if r = 3 * q then c q
  else c (4 * q - r)

/-- `cos(pi*a/72)`. -/
def cos72 (a : Nat) : F32 := cosWave 36 cosQuarter72 a

/-- `sin(pi*a/72)`, `a` in 0..72. -/
def sin72 (a : Nat) : F32 := if a ≤ 36 then cosQuarter72 (36 - a) else cosQuarter72 (a - 36)

/-- `TAB.COS36[m][p] = cos(pi/72 * (2p + 1 + 18) * (2m + 1))` (R79). -/
def cos36 (m p : Nat) : F32 := cos72 ((2 * p + 1 + 18) * (2 * m + 1))

/-- `TAB.COS12[m][p] = cos(pi/24 * (2p + 1 + 6) * (2m + 1))` (R79). -/
def cos12 (m p : Nat) : F32 := cos72 (3 * ((2 * p + 1 + 6) * (2 * m + 1)))

/-- `TAB.IMDCT_WIN[bt][p]` (R78): `sin(pi/36 * (p + 1/2))` is `sin(pi*(2p+1)/72)`, `sin(pi/12 * (p + 1/2))` is
`sin(pi*3*(2p+1)/72)`. -/
def imdctWin (bt : BlockType) (p : Nat) : F32 :=
  match bt with
  | .normal => sin72 (2 * p + 1)
  | .start =>
      if p < 18 then sin72 (2 * p + 1) else if p < 24 then 0x3F800000#32
      else if p < 30 then sin72 (3 * (2 * (p - 18) + 1)) else 0#32
  | .short => if p < 12 then sin72 (3 * (2 * p + 1)) else 0#32
  | .stop =>
      if p < 6 then 0#32 else if p < 12 then sin72 (3 * (2 * (p - 6) + 1))
      else if p < 18 then 0x3F800000#32 else sin72 (2 * p + 1)

/-- `TAB.NWIN[i][k] = cos((16 + i) * (2k + 1) * pi / 64)` (R80). -/
def nwin (i k : Nat) : F32 := cosWave 32 cosQuarter64 ((16 + i) * (2 * k + 1))

/-- `TAB.SYNTH_D[i]`, OPEN (R81): every finite value of `F` (a parameter that is no finite value is no entry of a table
R7(b) allows, and 0 takes its place; log 7). -/
def synthD (i : Nat) : F32 := if fFinite (Config.synthWindow i) then Config.synthWindow i else 0#32

end Sys2Proof.Machine
end

