-- ==== Sys2Proof/Machine/Operands.lean ====
section
/-! DEFINITION. How operations read and write the register files (10_state R21 to R37), and the register-derived values the
rules abbreviate. -/

namespace Sys2Proof.Machine

/-- `XR[gr][ch]`. -/
def State.lines (s : State) (gr ch : Fin 2) : Lines := (s.xr.get gr).get ch

/-- `XR[gr][ch] <- v`. -/
def State.setLines (s : State) (gr ch : Fin 2) (v : Lines) : State :=
  { s with xr := s.xr.set gr ((s.xr.get gr).set ch v) }

/-- `XR[gr][ch][i]`. -/
def State.line (s : State) (gr ch : Fin 2) (i : Nat) : F32 := (s.lines gr ch).get i 0#32

/-- `XR[gr][ch][i] <- v`. -/
def State.setLine (s : State) (gr ch : Fin 2) (i : Nat) (v : F32) : State :=
  s.setLines gr ch ((s.lines gr ch).set i v)

/-- `SI.*[gr][ch]`. -/
def State.gran (s : State) (gr ch : Fin 2) : Gran := (s.si.gran.get gr).get ch

/-- `SI.*[gr][ch] <- g`. -/
def State.setGran (s : State) (gr ch : Fin 2) (g : Gran) : State :=
  { s with si := { s.si with gran := s.si.gran.set gr ((s.si.gran.get gr).set ch g) } }

/-- `SCF_L[gr][ch][b]`. -/
def State.scfLong (s : State) (gr ch : Fin 2) (b : Nat) : BitVec 4 := ((s.scfL.get gr).get ch).get b 0

/-- `SCF_L[gr][ch][b] <- v`. -/
def State.setScfLong (s : State) (gr ch : Fin 2) (b : Nat) (v : BitVec 4) : State :=
  { s with scfL := s.scfL.set gr ((s.scfL.get gr).set ch (((s.scfL.get gr).get ch).set b v)) }

/-- `SCF_S[gr][ch][b][win]`. -/
def State.scfShort (s : State) (gr ch : Fin 2) (b win : Nat) : BitVec 4 := ((s.scfS.get gr).get ch).get (3 * b + win) 0

/-- `SCF_S[gr][ch][b][win] <- v`. -/
def State.setScfShort (s : State) (gr ch : Fin 2) (b win : Nat) (v : BitVec 4) : State :=
  { s with scfS := s.scfS.set gr ((s.scfS.get gr).set ch (((s.scfS.get gr).get ch).set (3 * b + win) v)) }

/-- `SI.SCFSI[ch][k]`. -/
def State.scfsi (s : State) (ch : Fin 2) (k : Nat) : Bool := (s.si.scfsi.get ch).getMsbD k

/-- `STORE[ch][sb][i]`. -/
def State.overlap (s : State) (ch : Fin 2) (sb i : Nat) : F32 := (s.store.get ch).get (18 * sb + i) 0#32

/-- `STORE[ch] <- v`. -/
def State.setStore (s : State) (ch : Fin 2) (v : Lines) : State := { s with store := s.store.set ch v }

/-- `VVEC[ch][j]`. -/
def State.hist (s : State) (ch : Fin 2) (j : Nat) : F32 := (s.vvec.get ch).get j 0#32

/-- `VVEC[ch] <- v`. -/
def State.setHist (s : State) (ch : Fin 2) (v : History) : State := { s with vvec := s.vvec.set ch v }

/-- `SEQ <- (op, gr, ch)` (00_scope R10). -/
def State.stage (s : State) (op : Opid) (gr ch : Fin 2) : State := { s with seq := ⟨op, gr, ch⟩ }

/-- `BITPOS <- p` (00_scope R10). -/
def State.setBitpos (s : State) (p : Nat) : State := { s with bitpos := p }

/-- The value an operation returns (the model's own register, log 14). -/
def State.returns (s : State) (r : Ret) : State := { s with ret := r }

/-- "Short granule": `SI.WIN_SWITCH = 1 and SI.BLOCK_TYPE = 2` (43_requantize_reorder, head). -/
def Gran.isShort (g : Gran) : Bool := g.winSwitch && g.blockType == .short

/-- A short granule with `SI.MIXED = 1`. -/
def Gran.isMixed (g : Gran) : Bool := g.isShort && g.mixed

/-- `SI.TABLE_SELECT[r]`. -/
def Gran.table (g : Gran) (r : Nat) : BitVec 5 := if r = 0 then g.table0 else if r = 1 then g.table1 else g.table2

/-- `SI.SUBBLOCK_GAIN[w]`. -/
def Gran.gain (g : Gran) (w : Nat) : BitVec 3 := if w = 0 then g.gain0 else if w = 1 then g.gain1 else g.gain2

/-- The band-edge rows `l` and `s` of the current frame (20_memory R72). -/
def State.longRow (s : State) : List Nat := sfbLong s.hdr.lsf s.hdr.sfreq

def State.shortRow (s : State) : List Nat := sfbShort s.hdr.lsf s.hdr.sfreq

end Sys2Proof.Machine
end

