-- ==== Sys2Proof/Machine/Ops.lean ====
section
/-! DEFINITION. The operations the meanings share: sequencing with raises, taking an exception and the way back from one, the
bit cursor's read, codeword decoding, the PCM memory. -/

namespace Sys2Proof.Machine

/-! ### Taking an exception (60_exceptions R286, R293) -/

/-- Every part of the state that a fault leaves unspecified takes a free value (R293(b), U1; log 10). `operands` are the bytes
given with the command; the values are functions of these and of the state alone, whatever raises (DESIGN CHOICE, log 41). -/
def scramble (operands : List Byte) (s : State) : State :=
  { s with
    xr := .tab fun gr => .tab fun ch => .tab 576 fun i => Config.anyF32 0 operands s (1152 * gr.val + 576 * ch.val + i)
    scfL := .tab fun gr => .tab fun ch => .tab 22 fun b => BitVec.ofNat 4 (Config.anyNat 1 operands s (44 * gr.val + 22 * ch.val + b))
    scfS := .tab fun gr => .tab fun ch => .tab 39 fun b => BitVec.ofNat 4 (Config.anyNat 2 operands s (78 * gr.val + 39 * ch.val + b))
    bitpos := Config.anyNat 3 operands s 0
    hdr := anyHdr operands s
    si := anySi operands s
    store := .tab fun ch => .tab 576 fun i => Config.anyF32 4 operands s (576 * ch.val + i)
    vvec := .tab fun ch => .tab 1024 fun j => Config.anyF32 5 operands s (1024 * ch.val + j)
    rsv := Config.anyBytes 6 operands s
    md := Config.anyBytes 7 operands s
    pcm := anyPcm operands s
    free := s.free + 1 }
where
  /-- Unspecified `HDR.*`, each within its type. -/
  anyHdr (operands : List Byte) (s : State) : Hdr :=
    let n := Config.anyNat 8 operands s
    ⟨n 0 % 2 == 1, ⟨n 1 % 3, Nat.mod_lt _ (by decide)⟩, ChannelMode.ofBits (BitVec.ofNat 2 (n 2)), BitVec.ofNat 2 (n 3), n 4 % 2 == 1,
      BitVec.ofNat 12 (n 5)⟩
  /-- Unspecified `SI.*`, each within its type. -/
  anySi (operands : List Byte) (s : State) : SideInfo :=
    let n := Config.anyNat 9 operands s
    ⟨BitVec.ofNat 9 (n 0), BitVec.ofNat 5 (n 1), ⟨BitVec.ofNat 4 (n 2), BitVec.ofNat 4 (n 3)⟩,
      .tab fun gr => .tab fun ch => anyGran fun k => n (4 + 40 * gr.val + 20 * ch.val + k)⟩
  /-- Unspecified `SI.*[gr][ch]`. -/
  anyGran (n : Nat → Nat) : Gran :=
    ⟨BitVec.ofNat 12 (n 0), BitVec.ofNat 9 (n 1), BitVec.ofNat 8 (n 2), BitVec.ofNat 9 (n 3), n 4 % 2 == 1,
      BlockType.ofBits (BitVec.ofNat 2 (n 5)), n 6 % 2 == 1, BitVec.ofNat 5 (n 7), BitVec.ofNat 5 (n 8), BitVec.ofNat 5 (n 9),
      BitVec.ofNat 3 (n 10), BitVec.ofNat 3 (n 11), BitVec.ofNat 3 (n 12), BitVec.ofNat 4 (n 13), BitVec.ofNat 4 (n 14),
      n 15 % 2 == 1, n 16 % 2 == 1, n 17 % 2 == 1, BitVec.ofNat 10 (n 18)⟩
  /-- Unspecified `PCM`: every one of its bytes. -/
  anyPcm (operands : List Byte) (s : State) : Memory :=
    (List.range 4608).map fun a => (a, BitVec.ofNat 8 (Config.anyNat 10 operands s a))

/-- The outcome of a command that ends with cause `c` (47_frame_control R270). -/
def Cause.outcome (c : Cause) : CmdOutcome :=
  match c.exn with
  | .formatError => .formatError c
  | .unexpectedEos => .unexpectedEos c
  | .skipped => .skipped c

/-- What a raise with cause `c` at position `pos` under flags `f` writes (60_exceptions R286): `CAUSE`, `WHERE`, the flag, `SEQ`
idle, the outcome returned. -/
def recordRaise (c : Cause) (pos : SeqPos) (f : Status) (t : State) : State :=
  { t with
    cause := c
    whr := pos
    status := f.raised c.exn
    seq := .idle
    outcome := Cause.outcome c }

/-- `raise E(cause)` (60_exceptions R286): the record written; after `FormatError` and `UnexpectedEOS` everything else
unspecified (R293(b)), after `Skipped` everything else kept (R290). A single step can raise while `FAULT` is 1: the new cause
and place replace the first (DESIGN CHOICE, log 40). -/
def takeException (c : Cause) (operands : List Byte) (s : State) : State :=
  recordRaise c s.seq s.status
    (match c.exn with
      | .skipped => s
      | .formatError | .unexpectedEos => scramble operands s)

/-- What `RESET` writes (47_frame_control R267): the persistent files zeroed, the reservoir emptied, the status, cause and
sequencer cleared, the outcome `Done`. -/
def clearPersistent (t : State) : State :=
  { t with
    store := .both (zeros 576)
    vvec := .both (zeros 1024)
    rsv := []
    status := Status.clear
    cause := .noCause
    whr := .idle
    seq := .idle
    outcome := .done }

/-- The way back from an exception: there is no return instruction (R294); after a fault the host issues `RESET`, which is
this (47_frame_control R267). All it does not write is unspecified (10_state R43, U9; logs 11 and 41). -/
def resetState (s : State) : State := clearPersistent (scramble [] s)

/-! ### Sequencing -/

/-- What an operation gives: a value and the state after it, or a raise and the state at it. -/
inductive Res (α : Type) where
  | ok (a : α) (s : State)
  | raised (c : Cause) (s : State)

/-- One operation, then the next; a raise ends the sequence (00_scope R10). -/
def Res.andThen {α β : Type} (r : Res α) (k : α → State → Res β) : Res β :=
  match r with
  | .ok a s => k a s
  | .raised c s => .raised c s

/-- `for x in xs: f x`, in order (00_scope R10). -/
def forEach {ι : Type} : List ι → (ι → State → Res Unit) → State → Res Unit
  | [], _, s => .ok () s
  | x :: xs, f, s => (f x s).andThen fun _ t => forEach xs f t

/-- What `exec` answers for an operation: its next state, or the exception it raises (60_exceptions R286). -/
def settle {α : Type} (operands : List Byte) (finish : α → State → State) : Res α → Host.Outcome State Fault Refusal
  | .ok a s => .next (finish a s)
  | .raised c s => .next (takeException c operands s)

/-- An operation that returns nothing. No operand bytes go to the free values of its raise (DESIGN CHOICE, log 41). -/
def run (r : Res Unit) : Host.Outcome State Fault Refusal := settle [] (fun _ s => s) r

/-- An operation whose value goes to the return register; log 41 as for `run`. -/
def runRet {α : Type} (wrap : α → Ret) (r : Res α) : Host.Outcome State Fault Refusal :=
  settle [] (fun a s => s.returns (wrap a)) r

/-! ### The bit cursor (40_bitcursor_reservoir R131, R134) -/

/-- Bit position `p` of a byte sequence (00_scope R9); 0 at or beyond its end (R134, `OVERREAD = zero`). -/
def bitAt (bs : List Byte) (p : Nat) : Bool := (bs.getD (p / 8) 0#8).getMsbD (p % 8)

/-- The `n` bits from position `p`, the first the most significant. -/
def bitsAt (bs : List Byte) (p : Nat) : Nat → Nat
  | 0 => 0
  | n + 1 => 2 * bitsAt bs p n + (bitAt bs (p + n)).toNat

/-- `GetBits(n)` under an over-read policy. -/
def getBitsWith (policy : OverRead) (n : Nat) (s : State) : Res Nat :=
  if n = 0 then .ok 0 s
  else if s.bitpos + n > 8 * s.md.length then
    match policy with
    | .fault => .raised .bitsOverrun s
    | .zero => .ok (bitsAt s.md s.bitpos n) (s.setBitpos (s.bitpos + n))
  else .ok (bitsAt s.md s.bitpos n) (s.setBitpos (s.bitpos + n))

/-- `GetBits(n)` (R131). -/
def getBits (n : Nat) (s : State) : Res Nat := getBitsWith Config.overread n s

/-! ### Codewords (42_huffman R168, R171; 30_encoding R106) -/

/-- Read one bit at a time until the bits are a codeword; `HUFF_ILLEGAL` where they are a prefix of none. `fuel` is the
longest codeword's length, after which nothing is left to match. -/
def readCodeword {α : Type} (b : Book α) : (fuel : Nat) → (w : List Bool) → State → Res α
  | 0, _, s => .raised .huffIllegal s
  | fuel + 1, w, s =>
    (getBits 1 s).andThen fun v t =>
      let w := w ++ [v == 1]
      match b.value w with
      | some a => .ok a t
      | none => if b.extends w then readCodeword b fuel w t else .raised .huffIllegal t

/-- One codeword of a book. -/
def readBook {α : Type} (b : Book α) (s : State) : Res α := readCodeword b b.longest [] s

/-! ### The PCM memory (20_memory R60, R69; log 13) -/

/-- The addresses of `PCM`: 2 granules of 2304 bytes, whatever `NGR` is (R60 gives `576 * NGR * 4`; DESIGN CHOICE, log 37). -/
def pcmSize : Nat := 4608

/-- The canonical form: addresses strictly rising and inside `PCM`. An address not listed has no value. -/
def Memory.wf : Memory → Bool
  | [] => true
  | [(a, _)] => decide (a < pcmSize)
  | (a, _) :: (b, y) :: rest => decide (a < b) && Memory.wf ((b, y) :: rest)

/-- The byte at an address; none where nothing has been written. -/
def Memory.read : Memory → Nat → Option Byte
  | [], _ => none
  | (a, x) :: rest, b => if a = b then some x else Memory.read rest b

/-- Store one byte at its place in the order. -/
def Memory.write : Memory → Nat → Byte → Memory
  | [], b, y => [(b, y)]
  | (a, x) :: rest, b, y =>
    if b < a then (b, y) :: (a, x) :: rest
    else if a = b then (b, y) :: rest
    else (a, x) :: Memory.write rest b y

/-- The first `n` bytes of `PCM` (47_frame_control R266 step 11). -/
def pcmBytes (m : Memory) (n : Nat) : List Byte := (List.range n).filterMap (Memory.read m)

end Sys2Proof.Machine
end

