-- ==== Sys2Proof/Machine/BitCursor.lean ====
section
/-! DEFINITION. `BC.READ`, `BC.POS`, `BC.SETPOS` and `GetBits` (40_bitcursor_reservoir R130 to R134, 30_encoding R108). -/

namespace Sys2Proof.Machine

/-- `BC.READ n` (R131). The table allows `n` up to 32 and no rule issues more than 13 (log 19). -/
def execBcRead (n : Fin 33) (s : State) : Host.Outcome State Fault Refusal := runRet .nat (getBits n.val s)

/-- `BC.POS` (R132). -/
def execBcPos (s : State) : Host.Outcome State Fault Refusal := .next (s.returns (.nat s.bitpos))

/-- `BC.SETPOS p` (R133): no check of `p`. -/
def execBcSetpos (p : Nat) (s : State) : Host.Outcome State Fault Refusal := .next (s.setBitpos p)

/-- `GetBits(n)` is `BC.READ n` (30_encoding R108). -/
def execGetBits (n : Fin 33) (s : State) : Host.Outcome State Fault Refusal := runRet .nat (getBits n.val s)

end Sys2Proof.Machine
end

