-- ==== Sys2Proof/Machine/Causes.lean ====
section
/-! DEFINITION. The cause codes as rows (60_exceptions R287): a raise with that cause (R286; logs 26, 27; no operand
bytes, log 41; while `FAULT` is 1, log 40). -/

namespace Sys2Proof.Machine

def execCauseFrameSize (s : State) : Host.Outcome State Fault Refusal := .next (takeException .frameSize [] s)

def execCauseMainSize (s : State) : Host.Outcome State Fault Refusal := .next (takeException .mainSize [] s)

def execCauseBitsOverrun (s : State) : Host.Outcome State Fault Refusal := .next (takeException .bitsOverrun [] s)

def execCauseScfCount (s : State) : Host.Outcome State Fault Refusal := .next (takeException .scfCount [] s)

def execCauseHuffTableReserved (s : State) : Host.Outcome State Fault Refusal := .next (takeException .huffTableReserved [] s)

def execCauseHuffIllegal (s : State) : Host.Outcome State Fault Refusal := .next (takeException .huffIllegal [] s)

def execCauseLineRange (s : State) : Host.Outcome State Fault Refusal := .next (takeException .lineRange [] s)

def execCauseRegionRange (s : State) : Host.Outcome State Fault Refusal := .next (takeException .regionRange [] s)

def execCauseStereoBlockMismatch (s : State) : Host.Outcome State Fault Refusal := .next (takeException .stereoBlockMismatch [] s)

def execCauseSiTruncated (s : State) : Host.Outcome State Fault Refusal := .next (takeException .siTruncated [] s)

def execCauseMainTruncated (s : State) : Host.Outcome State Fault Refusal := .next (takeException .mainTruncated [] s)

def execCauseRsvInsufficient (s : State) : Host.Outcome State Fault Refusal := .next (takeException .rsvInsufficient [] s)

end Sys2Proof.Machine
end

