-- ==== Sys2Proof/Machine/Huffman.lean ====
section
/-! DEFINITION. `HUF.PAIR`, `HUF.QUAD`, `HUF.BIG`, `HUF.CNT1`, `HUF.GRANULE` (42_huffman R166 to R177). -/

namespace Sys2Proof.Machine

/-- The escape of one element (R168): `x + GetBits(linbits(t))` where `linbits(t) > 0 and x = 15`. -/
def readEscape (t x : Nat) (s : State) : Res Nat :=
  if 0 < linbits t ∧ x = 15 then (getBits (linbits t) s).andThen fun v s => .ok (x + v) s else .ok x s

/-- The sign of one element (R168, R171): a bit only where the magnitude is above 0. -/
def readSign (mag : Nat) (s : State) : Res Int :=
  if 0 < mag then (getBits 1 s).andThen fun v s => .ok (signed mag (v == 1)) s else .ok 0 s

/-- `HUF.PAIR t` (R168, R177). -/
def opHufPair (t : Nat) (s : State) : Res (Int × Int) :=
  if t = 0 then .ok (0, 0) s
  else if reservedTable t then .raised .huffTableReserved s
  else
    (readBook (pairBook t) s).andThen fun v s =>
    (readEscape t v.1 s).andThen fun x s =>
    (readSign x s).andThen fun x s =>
    (readEscape t v.2 s).andThen fun y s =>
    (readSign y s).andThen fun y s => .ok (x, y) s

/-- A quadruple `(v, w, x, y)`. -/
structure Quad where
  v : Int
  w : Int
  x : Int
  y : Int
  deriving DecidableEq, Repr

/-- `HUF.QUAD q` (R171). -/
def opHufQuad (q : Bool) (s : State) : Res Quad :=
  (readBook (quadBook q) s).andThen fun e s =>
  (readSign (e.getLsbD 3).toNat s).andThen fun v s =>
  (readSign (e.getLsbD 2).toNat s).andThen fun w s =>
  (readSign (e.getLsbD 1).toNat s).andThen fun x s =>
  (readSign (e.getLsbD 0).toNat s).andThen fun y s => .ok ⟨v, w, x, y⟩ s

/-- `region1_start` and `region2_start`; none where an index exceeds 22 (R172). -/
def regions (s : State) (g : Gran) : Option (Nat × Nat) :=
  if g.isShort then some (36, 576)
  else
    let i := g.region0.toNat + 1
    let j := g.region0.toNat + g.region1.toNat + 2
    if i > 22 ∨ j > 22 then none else some (edge s.longRow i, edge s.longRow j)

/-- `table(p)` (R172). -/
def regionTable (g : Gran) (r : Nat × Nat) (p : Nat) : Nat :=
  (g.table (if p < r.1 then 0 else if p < r.2 then 1 else 2)).toNat

/-- Pair number `k` of the big values: lines `2k` and `2k + 1` (R173). -/
def bigPair (gr ch : Fin 2) (g : Gran) (r : Nat × Nat) (k : Nat) (s : State) : Res Unit :=
  (opHufPair (regionTable g r (2 * k)) s).andThen fun v s =>
    .ok () ((s.setLine gr ch (2 * k) (fOfInt v.1)).setLine gr ch (2 * k + 1) (fOfInt v.2))

/-- `HUF.BIG` (R173). -/
def opHufBig (gr ch : Fin 2) (s : State) : Res Unit :=
  let g := s.gran gr ch
  if 2 * g.bigValues.toNat > 576 then .raised .lineRange s
  else
    match regions s g with
    | none => .raised .regionRange s
    | some r => forEach (List.range g.bigValues.toNat) (bigPair gr ch g r) s

/-- Four lines from `p` on. -/
def setQuad (gr ch : Fin 2) (p : Nat) (e : Quad) (s : State) : State :=
  (((s.setLine gr ch p (fOfInt e.v)).setLine gr ch (p + 1) (fOfInt e.w)).setLine gr ch (p + 2) (fOfInt e.x)).setLine gr ch
    (p + 3) (fOfInt e.y)

/-- The count1 loop from line `p` (R174); its value is the last `p`. 144 quadruples fill 576 lines. -/
def cnt1Loop (gr ch : Fin 2) (q : Bool) (endPos : Nat) : (fuel p : Nat) → State → Res Nat
  | 0, p, s => .ok p s
  | fuel + 1, p, s =>
    if p ≤ 572 ∧ s.bitpos < endPos then
      (opHufQuad q s).andThen fun e s => cnt1Loop gr ch q endPos fuel (p + 4) (setQuad gr ch p e s)
    else .ok p s

/-- After the loop: the overrun discard, `COUNT1`, the zero tail, the reposition (R175, R176). -/
def cnt1Finish (gr ch : Fin 2) (endPos p : Nat) (s : State) : State :=
  let p := if s.bitpos > endPos then p - 4 else p
  let s := s.setGran gr ch { s.gran gr ch with count1 := BitVec.ofNat 10 p }
  (s.setLines gr ch (.tab 576 fun i => if i < p then s.line gr ch i else 0#32)).setBitpos endPos

/-- `HUF.CNT1` (R174 to R176); `endPos` is the first bit after part 3 (R166). The range check on `BIG_VALUES` is `HUF.BIG`'s (R173): run
alone with `BIG_VALUES > 288` the loop reads nothing and `COUNT1` takes `2*BIG_VALUES` (less 4 after an overrun), above R33's 576
(DESIGN CHOICE, log 42). -/
def opHufCnt1 (gr ch : Fin 2) (part2Start : Nat) (s : State) : Res Unit :=
  let g := s.gran gr ch
  let endPos := part2Start + g.part23Length.toNat
  (cnt1Loop gr ch g.count1Table endPos 144 (2 * g.bigValues.toNat) s).andThen fun p s =>
    .ok () (cnt1Finish gr ch endPos p s)

/-- `HUF.GRANULE gr ch` (R166). -/
def opHufGranule (gr ch : Fin 2) (part2Start : Nat) (s : State) : Res Unit :=
  let s := s.stage .hufGranule gr ch
  if (s.gran gr ch).part23Length = 0 then
    .ok () ((s.setLines gr ch (zeros 576)).setGran gr ch { s.gran gr ch with count1 := 0 })
  else
    (opHufBig gr ch s).andThen fun _ s => opHufCnt1 gr ch part2Start s

/-- A pair as the return register shows it. -/
def retPair (v : Int × Int) : Ret := .ints [v.1, v.2]

/-- A quadruple as the return register shows it. -/
def retQuad (e : Quad) : Ret := .ints [e.v, e.w, e.x, e.y]

def execHufGranule (gr ch : Fin 2) (part2Start : Nat) (s : State) : Host.Outcome State Fault Refusal :=
  run (opHufGranule gr ch part2Start s)

def execHufBig (gr ch : Fin 2) (s : State) : Host.Outcome State Fault Refusal := run (opHufBig gr ch s)

/-- `HUF.CNT1` as a step (log 34), for every `BIG_VALUES`, above 288 too (DESIGN CHOICE, log 42). -/
def execHufCnt1 (gr ch : Fin 2) (part2Start : Nat) (s : State) : Host.Outcome State Fault Refusal :=
  run (opHufCnt1 gr ch part2Start s)

def execHufPair (t : BitVec 5) (s : State) : Host.Outcome State Fault Refusal := runRet retPair (opHufPair t.toNat s)

def execHufQuad (q : Bool) (s : State) : Host.Outcome State Fault Refusal := runRet retQuad (opHufQuad q s)

end Sys2Proof.Machine
end

