-- ==== Sys2Proof/Machine/Codewords.lean ====
section
/-! DEFINITION. The items of the main-data stream: `PAIR.ITEM`, `QUAD.ITEM` and the codewords of the opcode table
(30_encoding R102 to R104, 42_huffman R170, R178). Such a row is the item itself, already taken from the stream: its meaning is
that of the `HUF.PAIR` or `HUF.QUAD` that reads these bits (log 21). -/

namespace Sys2Proof.Machine

/-- What `HUF.PAIR` and `HUF.QUAD` do with an item of `bits` bits and value `v` (R131, R168, R171): `BITPOS` moves past it
and its value is returned; `MD` and its length are not looked at (log 21). -/
def consume (bits : Nat) (v : Ret) (s : State) : State := (s.setBitpos (s.bitpos + bits)).returns v

/-- A quadruple and its sign bits. -/
def consumeQuad (q : Bool) (value neg : BitVec 4) (s : State) : State :=
  consume (quadItemBits q value neg).length (.ints (quadElems value neg)) s

/-- A pair, its escapes and its sign bits. -/
def consumePair (t x0 y0 linX linY : Nat) (negX negY : Bool) (s : State) : State :=
  consume (pairItemBits t x0 y0 linX linY negX negY).length
    (.ints [signed (pairMagnitude t x0 linX) negX, signed (pairMagnitude t y0 linY) negY]) s

/-- `PAIR.ITEM` (30_encoding R102, R104(b), (c)). -/
def execPairItem (t : BitVec 5) (x0 y0 : BitVec 4) (linX linY : BitVec 13) (negX negY : Bool) (s : State) :
    Host.Outcome State Fault Refusal :=
  .next (consumePair t.toNat x0.toNat y0.toNat linX.toNat linY.toNat negX negY s)

/-- `QUAD.ITEM` (30_encoding R103, R104(d)). -/
def execQuadItem (q : Bool) (value neg : BitVec 4) (s : State) : Host.Outcome State Fault Refusal :=
  .next (consumeQuad q value neg s)

/-! `HUFF_QUAD[0]`, table A (42_huffman R170). -/

def execQuadA0000 (s : State) : Host.Outcome State Fault Refusal := .next (consumeQuad false 0b0000#4 0#4 s)

def execQuadA0001 (neg : BitVec 4) (s : State) : Host.Outcome State Fault Refusal :=
  .next (consumeQuad false 0b0001#4 neg s)

def execQuadA0010 (neg : BitVec 4) (s : State) : Host.Outcome State Fault Refusal :=
  .next (consumeQuad false 0b0010#4 neg s)

def execQuadA0011 (neg : BitVec 4) (s : State) : Host.Outcome State Fault Refusal :=
  .next (consumeQuad false 0b0011#4 neg s)

def execQuadA0100 (neg : BitVec 4) (s : State) : Host.Outcome State Fault Refusal :=
  .next (consumeQuad false 0b0100#4 neg s)

def execQuadA0101 (neg : BitVec 4) (s : State) : Host.Outcome State Fault Refusal :=
  .next (consumeQuad false 0b0101#4 neg s)

def execQuadA0110 (neg : BitVec 4) (s : State) : Host.Outcome State Fault Refusal :=
  .next (consumeQuad false 0b0110#4 neg s)

def execQuadA0111 (neg : BitVec 4) (s : State) : Host.Outcome State Fault Refusal :=
  .next (consumeQuad false 0b0111#4 neg s)

def execQuadA1000 (neg : BitVec 4) (s : State) : Host.Outcome State Fault Refusal :=
  .next (consumeQuad false 0b1000#4 neg s)

def execQuadA1001 (neg : BitVec 4) (s : State) : Host.Outcome State Fault Refusal :=
  .next (consumeQuad false 0b1001#4 neg s)

def execQuadA1010 (neg : BitVec 4) (s : State) : Host.Outcome State Fault Refusal :=
  .next (consumeQuad false 0b1010#4 neg s)

def execQuadA1011 (neg : BitVec 4) (s : State) : Host.Outcome State Fault Refusal :=
  .next (consumeQuad false 0b1011#4 neg s)

def execQuadA1100 (neg : BitVec 4) (s : State) : Host.Outcome State Fault Refusal :=
  .next (consumeQuad false 0b1100#4 neg s)

def execQuadA1101 (neg : BitVec 4) (s : State) : Host.Outcome State Fault Refusal :=
  .next (consumeQuad false 0b1101#4 neg s)

def execQuadA1110 (neg : BitVec 4) (s : State) : Host.Outcome State Fault Refusal :=
  .next (consumeQuad false 0b1110#4 neg s)

def execQuadA1111 (neg : BitVec 4) (s : State) : Host.Outcome State Fault Refusal :=
  .next (consumeQuad false 0b1111#4 neg s)

/-! `HUFF_QUAD[1]`, table B (42_huffman R170). -/

def execQuadB0000 (s : State) : Host.Outcome State Fault Refusal := .next (consumeQuad true 0b0000#4 0#4 s)

def execQuadB0001 (neg : BitVec 4) (s : State) : Host.Outcome State Fault Refusal :=
  .next (consumeQuad true 0b0001#4 neg s)

def execQuadB0010 (neg : BitVec 4) (s : State) : Host.Outcome State Fault Refusal :=
  .next (consumeQuad true 0b0010#4 neg s)

def execQuadB0011 (neg : BitVec 4) (s : State) : Host.Outcome State Fault Refusal :=
  .next (consumeQuad true 0b0011#4 neg s)

def execQuadB0100 (neg : BitVec 4) (s : State) : Host.Outcome State Fault Refusal :=
  .next (consumeQuad true 0b0100#4 neg s)

def execQuadB0101 (neg : BitVec 4) (s : State) : Host.Outcome State Fault Refusal :=
  .next (consumeQuad true 0b0101#4 neg s)

def execQuadB0110 (neg : BitVec 4) (s : State) : Host.Outcome State Fault Refusal :=
  .next (consumeQuad true 0b0110#4 neg s)

def execQuadB0111 (neg : BitVec 4) (s : State) : Host.Outcome State Fault Refusal :=
  .next (consumeQuad true 0b0111#4 neg s)

def execQuadB1000 (neg : BitVec 4) (s : State) : Host.Outcome State Fault Refusal :=
  .next (consumeQuad true 0b1000#4 neg s)

def execQuadB1001 (neg : BitVec 4) (s : State) : Host.Outcome State Fault Refusal :=
  .next (consumeQuad true 0b1001#4 neg s)

def execQuadB1010 (neg : BitVec 4) (s : State) : Host.Outcome State Fault Refusal :=
  .next (consumeQuad true 0b1010#4 neg s)

def execQuadB1011 (neg : BitVec 4) (s : State) : Host.Outcome State Fault Refusal :=
  .next (consumeQuad true 0b1011#4 neg s)

def execQuadB1100 (neg : BitVec 4) (s : State) : Host.Outcome State Fault Refusal :=
  .next (consumeQuad true 0b1100#4 neg s)

def execQuadB1101 (neg : BitVec 4) (s : State) : Host.Outcome State Fault Refusal :=
  .next (consumeQuad true 0b1101#4 neg s)

def execQuadB1110 (neg : BitVec 4) (s : State) : Host.Outcome State Fault Refusal :=
  .next (consumeQuad true 0b1110#4 neg s)

def execQuadB1111 (neg : BitVec 4) (s : State) : Host.Outcome State Fault Refusal :=
  .next (consumeQuad true 0b1111#4 neg s)

/-! `HUFF_PAIR[1]` (42_huffman R178). -/

def execPairOne00 (s : State) : Host.Outcome State Fault Refusal := .next (consumePair 1 0 0 0 0 false false s)

def execPairOne01 (negY : Bool) (s : State) : Host.Outcome State Fault Refusal := .next (consumePair 1 0 1 0 0 false negY s)

def execPairOne10 (negX : Bool) (s : State) : Host.Outcome State Fault Refusal := .next (consumePair 1 1 0 0 0 negX false s)

def execPairOne11 (negX negY : Bool) (s : State) : Host.Outcome State Fault Refusal :=
  .next (consumePair 1 1 1 0 0 negX negY s)

end Sys2Proof.Machine
end

