-- ==== Sys2Proof/Machine/Hybrid.lean ====
section
/-! DEFINITION. `ALIAS`, `HYB` with `IMDCT.L`, `IMDCT.S` and `OLA`, and `FINV` (45_antialias_hybrid). -/

namespace Sys2Proof.Machine

/-- The subbands below which boundaries are processed: none, one or 31 boundaries (R225). -/
def aliasLimit (g : Gran) : Nat := if g.isMixed then 2 else if g.isShort then 0 else 32

/-- Line `n = 18*sb + r` after `ALIAS` (R225): the `i`-th line above a boundary is `18*sb + i`, the `i`-th below is
`18*sb - 1 - i`; every line is in at most one butterfly (log 31). -/
def aliasValue (s : State) (gr ch : Fin 2) (n : Nat) : F32 :=
  let x := s.line gr ch
  let lim := aliasLimit (s.gran gr ch)
  let sb := n / 18
  let r := n % 18
  if r < 8 ∧ 1 ≤ sb ∧ sb < lim then
    fAdd (fMul (x n) (tabCs r)) (fMul (x (18 * sb - 1 - r)) (tabCa r))
  else if 10 ≤ r ∧ sb + 1 < lim then
    fSub (fMul (x n) (tabCs (17 - r))) (fMul (x (18 * (sb + 1) + (17 - r))) (tabCa (17 - r)))
  else x n

/-- `ALIAS gr ch` (R225). -/
def opAlias (gr ch : Fin 2) (s : State) : Res Unit :=
  let s := s.stage .antialias gr ch
  .ok () (s.setLines gr ch (.tab 576 (aliasValue s gr ch)))

/-- `IMDCT.L(X, bt)` (R228); block type 2, which R228 does not admit, is no instruction (log 46). -/
def imdctL (x : Bank F32 18) (bt : BlockType) : Bank F32 36 :=
  .tab 36 fun p => fMul (fSum 18 fun m => fMul (x.get m 0#32) (cos36 m p)) (imdctWin bt p)

/-- `IMDCT.S(X)` (R229): value `k` collects the windows that reach it, in time order, starting from 0. -/
def imdctS (x : Bank F32 18) : Bank F32 36 :=
  .tab 36 fun k => [0, 1, 2].foldl (fun raw w =>
    if 6 * w + 6 ≤ k ∧ k < 6 * w + 18 then
      let p := k - 6 * w - 6
      fAdd raw (fMul (fSum 6 fun m => fMul (x.get (w + 3 * m) 0#32) (cos12 m p)) (imdctWin .short p))
    else raw) 0#32

/-- The block type of subband `sb` (R230). -/
def subbandType (g : Gran) (sb : Nat) : BlockType := if g.winSwitch ∧ g.mixed ∧ sb < 2 then .normal else g.blockType

/-- `raw` of subband `sb` (R227). -/
def subbandRaw (s : State) (gr ch : Fin 2) (sb : Nat) : Bank F32 36 :=
  let x : Bank F32 18 := .tab 18 fun k => s.line gr ch (18 * sb + k)
  let bt := subbandType (s.gran gr ch) sb
  if bt = .short then imdctS x else imdctL x bt

/-- `OLA(gr, ch, sb, raw)` (R231). -/
def overlapAdd (gr ch : Fin 2) (sb : Nat) (raw : Bank F32 36) (s : State) : State :=
  (s.setLines gr ch (.tab 576 fun n =>
      if n / 18 = sb then fAdd (raw.get (n % 18) 0#32) (s.overlap ch sb (n % 18)) else s.line gr ch n)).setStore ch
    (.tab 576 fun n => if n / 18 = sb then raw.get (18 + n % 18) 0#32 else (s.store.get ch).get n 0#32)

/-- `HYB gr ch` (R227). -/
def opHyb (gr ch : Fin 2) (s : State) : Res Unit :=
  .ok () ((List.range 32).foldl (fun t sb => overlapAdd gr ch sb (subbandRaw t gr ch sb) t) (s.stage .hyb gr ch))

/-- `FINV gr ch` (R232): odd samples of odd subbands change sign. -/
def opFinv (gr ch : Fin 2) (s : State) : Res Unit :=
  let s := s.stage .finv gr ch
  .ok () (s.setLines gr ch (.tab 576 fun n =>
    if n / 18 % 2 = 1 ∧ n % 18 % 2 = 1 then fNeg (s.line gr ch n) else s.line gr ch n))

def execAlias (gr ch : Fin 2) (s : State) : Host.Outcome State Fault Refusal := run (opAlias gr ch s)

def execHyb (gr ch : Fin 2) (s : State) : Host.Outcome State Fault Refusal := run (opHyb gr ch s)

def execFinv (gr ch : Fin 2) (s : State) : Host.Outcome State Fault Refusal := run (opFinv gr ch s)

/-- `IMDCT.L(X, bt)` (R228). -/
def execImdctL (x : Bank F32 18) (bt : BlockType) (s : State) : Host.Outcome State Fault Refusal :=
  .next (s.returns (.vals (imdctL x bt).cells))

/-- `IMDCT.S(X)` (R229). -/
def execImdctS (x : Bank F32 18) (s : State) : Host.Outcome State Fault Refusal :=
  .next (s.returns (.vals (imdctS x).cells))

/-- `OLA(gr, ch, sb, raw)` (R231). -/
def execOla (gr ch : Fin 2) (sb : Fin 32) (raw : Bank F32 36) (s : State) : Host.Outcome State Fault Refusal :=
  .next (overlapAdd gr ch sb.val raw s)

end Sys2Proof.Machine
end

