-- ==== Sys2Proof/Machine/Requantize.lean ====
section
/-! DEFINITION. `REQ` with `REQ.L` and `REQ.S`, and `REORD` (43_requantize_reorder), line by line: each line's new value is
a function of the old lines, as the loops of the rules compute it (log 31). -/

namespace Sys2Proof.Machine

/-- `mult` (R190). -/
def reqMult (g : Gran) : Int := if g.scalefacScale then 4 else 2

/-- The quarter-step exponent of the long form (R191). -/
def longExp (s : State) (gr ch : Fin 2) (sfb : Nat) : Int :=
  let g := s.gran gr ch
  ((g.globalGain.toNat : Int) - 210) - reqMult g * ((s.scfLong gr ch sfb).toNat + g.preflag.toNat * pretab sfb)

/-- The quarter-step exponent of the short form (R192). -/
def shortExp (s : State) (gr ch : Fin 2) (sfb win : Nat) : Int :=
  let g := s.gran gr ch
  ((g.globalGain.toNat : Int) - 210 - 8 * (g.gain win).toNat) - reqMult g * (s.scfShort gr ch sfb win).toNat

/-- A quantized integer at an exponent (R191, R192). -/
def reqInt (q : Int) (e4 : Int) : F32 :=
  if q = 0 then fOfInt 0
  else
    let m := fMul (pow43 q.natAbs) (gain e4)
    if q > 0 then m else fNeg m

/-- A line at an exponent. The rules state a result where the line is the image of an integer of magnitude at most 8206
(R191, R196(b)); elsewhere the value is free (log 15). -/
def reqLine (x : F32) (e4 : Int) : F32 :=
  match fToInt x with
  | some q => if q.natAbs ≤ 8206 then reqInt q e4 else Config.requantUnstated x e4
  | none => Config.requantUnstated x e4

/-- How `REQ` treats a line. -/
inductive ReqForm where
  | untouched
  | long (sfb : Nat)
  | short (sfb win : Nat)
  deriving DecidableEq, Repr

/-- The short form of line `i`: its band starts below `COUNT1` (R194: "whole bands"), its window is its run within the band.
A `COUNT1` above 576 counts as 576 (DESIGN CHOICE, log 43). -/
def shortForm (s : State) (g : Gran) (i : Nat) : ReqForm :=
  let row := s.shortRow
  let b := bandOf (row.map (3 * ·)) i
  if 3 * edge row b < g.count1.toNat then .short b ((i - 3 * edge row b) / (edge row (b + 1) - edge row b)) else .untouched

/-- The traversal (R193, R194, R195), for lines 0 to 575: with `COUNT1` above 576, where the loops of R193 to R195 would leave the lines
and bands, it is that of `COUNT1 = 576` (DESIGN CHOICE, log 43). -/
def reqForm (s : State) (gr ch : Fin 2) (i : Nat) : ReqForm :=
  let g := s.gran gr ch
  if g.isMixed then (if i < 36 then .long (bandOf s.longRow i) else shortForm s g i)
  else if g.isShort then shortForm s g i
  else if i < g.count1.toNat then .long (bandOf s.longRow i)
  else .untouched

/-- Line `i` after `REQ`. -/
def reqValue (s : State) (gr ch : Fin 2) (i : Nat) : F32 :=
  match reqForm s gr ch i with
  | .untouched => s.line gr ch i
  | .long b => reqLine (s.line gr ch i) (longExp s gr ch b)
  | .short b w => reqLine (s.line gr ch i) (shortExp s gr ch b w)

/-- `REQ gr ch` (R190 to R196): the 576 lines, also where `COUNT1` is above 576 (DESIGN CHOICE, log 43). -/
def opReq (gr ch : Fin 2) (s : State) : Res Unit :=
  let s := s.stage .req gr ch
  .ok () (s.setLines gr ch (.tab 576 (reqValue s gr ch)))

/-- Line `k` after `REORD` (R197): in a short band whose start is below `COUNT1`, line `base + 3*j + win` takes the value
of line `base + win*win_len + j`. -/
def reordValue (s : State) (gr ch : Fin 2) (k : Nat) : F32 :=
  let g := s.gran gr ch
  let row := s.shortRow
  let b := bandOf (row.map (3 * ·)) k
  let base := 3 * edge row b
  if g.isShort ∧ (g.mixed = false ∨ 3 ≤ b) ∧ base < g.count1.toNat then
    s.line gr ch (base + (k - base) % 3 * (edge row (b + 1) - edge row b) + (k - base) / 3)
  else s.line gr ch k

/-- `REORD gr ch` (R197). -/
def opReord (gr ch : Fin 2) (s : State) : Res Unit :=
  let s := s.stage .reord gr ch
  .ok () (s.setLines gr ch (.tab 576 (reordValue s gr ch)))

def execReq (gr ch : Fin 2) (s : State) : Host.Outcome State Fault Refusal := run (opReq gr ch s)

def execReord (gr ch : Fin 2) (s : State) : Host.Outcome State Fault Refusal := run (opReord gr ch s)

/-- `REQ.L(q, sfb)` on the registers of `(gr, ch)` (R191). -/
def execReqL (gr ch : Fin 2) (q : BitVec 16) (sfb : Fin 22) (s : State) : Host.Outcome State Fault Refusal :=
  .next (s.returns (.vals [reqLine (fOfInt q.toInt) (longExp s gr ch sfb.val)]))

/-- `REQ.S(q, sfb, win)` on the registers of `(gr, ch)` (R192). -/
def execReqS (gr ch : Fin 2) (q : BitVec 16) (sfb : Fin 13) (win : Fin 3) (s : State) :
    Host.Outcome State Fault Refusal :=
  .next (s.returns (.vals [reqLine (fOfInt q.toInt) (shortExp s gr ch sfb.val win.val)]))

end Sys2Proof.Machine
end

