-- ==== Sys2Proof/Machine/Reservoir.lean ====
section
/-! DEFINITION. `RSV.CHECK`, `RSV.RECV`, `RSV.APPEND`, `RSV.SPLICE` (40_bitcursor_reservoir R135 to R138). -/

namespace Sys2Proof.Machine

/-- `RSV.CHECK` (R135). -/
def opRsvCheck (s : State) : Res Unit :=
  let s := s.stage .rsvCheck 0 0
  if s.hdr.mainSize > 1500 then .raised .mainSize s
  else if s.hdr.mainSize < 0 then .raised .mainSize s
  else .ok () s

/-- `RSV.RECV` (R136). -/
def opRsvRecv (main : List Byte) (s : State) : Res Unit :=
  let s := s.stage .rsvRecv 0 0
  if (main.length : Int) < s.hdr.mainSize then .raised .mainTruncated s else .ok () s

/-- `RSV.APPEND` (R137): all of `MAIN`, whatever its length (log 38), also where the history is there (log 39): DESIGN CHOICE,
for a step on its own; in a `FRAME` neither arises (20_memory R66; R137). -/
def opRsvAppend (main : List Byte) (s : State) : Res Unit :=
  let s := s.stage .rsvAppend 0 0
  .raised .rsvInsufficient { s with rsv := s.rsv ++ main }

/-- `tail(s, n)` (00_scope R8); where it is undefined (`n > len(s)`), a free value (log 18). -/
def tailBytes (bs : List Byte) (n : Nat) : List Byte :=
  if n ≤ bs.length then bs.drop (bs.length - n) else Config.tailUnstated bs n

/-- `RSV.SPLICE` (R138): all of `MAIN`, whatever its length (DESIGN CHOICE, log 38; in a `FRAME` it is `MAIN_SIZE`, 20_memory
R66). -/
def opRsvSplice (main : List Byte) (s : State) : Res Unit :=
  let s := s.stage .rsvSplice 0 0
  let md := tailBytes s.rsv s.si.mainDataBegin.toNat ++ main
  .ok () { s with md := md, rsv := md, bitpos := 0 }

def execRsvCheck (s : State) : Host.Outcome State Fault Refusal := run (opRsvCheck s)

def execRsvRecv (main : List Byte) (s : State) : Host.Outcome State Fault Refusal :=
  settle main (fun _ t => t) (opRsvRecv main s)

/-- `RSV.APPEND` as a step: performed and `Skipped` raised whatever `SI.MAIN_DATA_BEGIN` is (DESIGN CHOICE, log 39). -/
def execRsvAppend (main : List Byte) (s : State) : Host.Outcome State Fault Refusal :=
  settle main (fun _ t => t) (opRsvAppend main s)

def execRsvSplice (main : List Byte) (s : State) : Host.Outcome State Fault Refusal :=
  settle main (fun _ t => t) (opRsvSplice main s)

end Sys2Proof.Machine
end

