-- ==== Sys2Proof/Machine/ScaleFactors.lean ====
section
/-! DEFINITION. `SCF.CLEAR`, `SCF.M1`, `SCF.M2` and the scale-factor fields of the stream (41_scalefactors). -/

namespace Sys2Proof.Machine

/-- `a, a+1, ..., b-1` (00_scope R10). -/
def range (a b : Nat) : List Nat := List.range' a (b - a)

/-- `SCF.CLEAR` (R151). -/
def opScfClear (s : State) : Res Unit :=
  let s := s.stage .scfClear 0 0
  .ok () { s with scfL := .both (.both (.tab 22 fun _ => 0)), scfS := .both (.both (.tab 39 fun _ => 0)) }

/-- `SCF_L[gr][ch][b] <- GetBits(w)`. -/
def readLong (gr ch : Fin 2) (w b : Nat) (s : State) : Res Unit :=
  (getBits w s).andThen fun v t => .ok () (t.setScfLong gr ch b (BitVec.ofNat 4 v))

/-- `SCF_S[gr][ch][b][win] <- GetBits(w)` for `win` in 0..2. -/
def readShort (gr ch : Fin 2) (w b : Nat) (s : State) : Res Unit :=
  forEach [0, 1, 2] (fun win t =>
    (getBits w t).andThen fun v t => .ok () (t.setScfShort gr ch b win (BitVec.ofNat 4 v))) s

/-- `SCF_L[1][ch][b] <- SCF_L[0][ch][b]` (R155). -/
def copyLong (ch : Fin 2) (b : Nat) (s : State) : Res Unit := .ok () (s.setScfLong 1 ch b (s.scfLong 0 ch b))

/-- One of the four band groups of the long-block form (R152). -/
def scfGroup (gr ch : Fin 2) (k b0 b1 w : Nat) (s : State) : Res Unit :=
  if gr = 0 ∨ s.scfsi ch k = false then forEach (range b0 b1) (readLong gr ch w) s
  else forEach (range b0 b1) (copyLong ch) s

/-- The long-block form (R152). -/
def scfM1Long (gr ch : Fin 2) (slen1 slen2 : Nat) (s : State) : Res Unit :=
  (scfGroup gr ch 0 0 6 slen1 s).andThen fun _ s =>
  (scfGroup gr ch 1 6 11 slen1 s).andThen fun _ s =>
  (scfGroup gr ch 2 11 16 slen2 s).andThen fun _ s =>
  scfGroup gr ch 3 16 21 slen2 s

/-- The short bands from `b0` on (R153, R154). -/
def scfM1Short (gr ch : Fin 2) (b0 slen1 slen2 : Nat) (s : State) : Res Unit :=
  forEach (range b0 12) (fun b => readShort gr ch (if b < 6 then slen1 else slen2) b) s

/-- `SCF.M1 gr ch` (R152 to R155); its value is `part2_start` (R150; log 34). A channel the frame lacks is read like any other
(DESIGN CHOICE, log 37). -/
def opScfM1 (gr ch : Fin 2) (s : State) : Res Nat :=
  let s := s.stage .scfM1 gr ch
  let g := s.gran gr ch
  let w := slen g.scalefacCompress.toNat
  let body :=
    if g.isMixed then
      (forEach (range 0 8) (readLong gr ch w.1) s).andThen fun _ t => scfM1Short gr ch 3 w.1 w.2 t
    else if g.isShort then scfM1Short gr ch 0 w.1 w.2 s
    else scfM1Long gr ch w.1 w.2 s
  body.andThen fun _ t => .ok s.bitpos t

/-- `count` fields of `w` bits (30_encoding R101). -/
def readFields (w : Nat) : (count : Nat) → State → Res (List Nat)
  | 0, s => .ok [] s
  | n + 1, s => (getBits w s).andThen fun v s => (readFields w n s).andThen fun vs s => .ok (v :: vs) s

/-- The class index `n` (R156). -/
def scfClass (g : Gran) : Nat := if g.blockType = .short then (if g.mixed then 2 else 1) else 0

/-- The four partitions of the list, in order (R156). -/
def readPartitions (n : Nat) (e : Nslen2) : (parts : List Nat) → State → Res (List Nat)
  | [], s => .ok [] s
  | i :: rest, s =>
    (readFields (e.slen.getD i 0) (scfPart n e.d i) s).andThen fun vs s =>
      (readPartitions n e rest s).andThen fun ws s => .ok (vs ++ ws) s

/-- Distribution of the list (R157). -/
def distribute (ch : Fin 2) (list : List Nat) (s : State) : Res Unit :=
  if list.length = 22 then
    .ok () { s with scfL := s.scfL.set 0 ((s.scfL.get 0).set ch (.tab 22 fun b => BitVec.ofNat 4 (list.getD b 0))) }
  else if list.length ≥ 39 then
    .ok () { s with scfS := s.scfS.set 0 ((s.scfS.get 0).set ch (.tab 39 fun k => BitVec.ofNat 4 (list.getD k 0))) }
  else .raised .scfCount s

/-- `SCF.M2 ch` (R156 to R158); its value is `part2_start` (R150; log 34). A channel the frame lacks is read like any other
(DESIGN CHOICE, log 37). -/
def opScfM2 (ch : Fin 2) (s : State) : Res Nat :=
  let s := s.stage .scfM2 0 ch
  let g := s.gran 0 ch
  let e := nslen2 g.scalefacCompress.toNat
  let n := scfClass g
  (readPartitions n e [0, 1, 2, 3] (s.setGran 0 ch { g with preflag := e.preflag })).andThen fun list t =>
    (distribute ch (list ++ List.replicate (2 * n + 1) 0) t).andThen fun _ t => .ok s.bitpos t

def execScfClear (s : State) : Host.Outcome State Fault Refusal := run (opScfClear s)

/-- `SCF.M1` as a step, for every `gr` and `ch`, those the frame lacks among them (DESIGN CHOICE, log 37). -/
def execScfM1 (gr ch : Fin 2) (s : State) : Host.Outcome State Fault Refusal := runRet .nat (opScfM1 gr ch s)

/-- `SCF.M2` as a step, for every `ch`, one the frame lacks among them (DESIGN CHOICE, log 37). -/
def execScfM2 (ch : Fin 2) (s : State) : Host.Outcome State Fault Refusal := runRet .nat (opScfM2 ch s)

/-- `SCF.FIELD.M1`: one field of `slen1` or `slen2` bits, its value the unsigned number (30_encoding R100, R104(a);
log 36), also where `HDR.LSF = 1` (DESIGN CHOICE, log 45). -/
def execScfFieldM1 (gr ch : Fin 2) (second : Bool) (s : State) : Host.Outcome State Fault Refusal :=
  let w := slen (s.gran gr ch).scalefacCompress.toNat
  runRet .nat (getBits (if second then w.2 else w.1) s)

/-- `SCF.FIELD.M2`: partition `part`'s run of fields, their values the unsigned numbers (30_encoding R101, R104(a);
log 36), also where `HDR.LSF = 0` (DESIGN CHOICE, log 45). -/
def execScfFieldM2 (ch : Fin 2) (part : Fin 4) (s : State) : Host.Outcome State Fault Refusal :=
  let g := s.gran 0 ch
  let e := nslen2 g.scalefacCompress.toNat
  runRet (fun vs : List Nat => .ints (vs.map Int.ofNat))
    (readFields (e.slen.getD part.val 0) (scfPart (scfClass g) e.d part.val) s)

end Sys2Proof.Machine
end

