-- ==== Sys2Proof/Machine/SideInfo.lean ====
section
/-! DEFINITION. `LOADSI`, the rows of the side-information image and the host's header (30_encoding R94 to R98). -/

namespace Sys2Proof.Machine

/-- The registers of a granule and channel after its group is read: the fields of the group, the implicit ones of R98;
`COUNT1` kept (R96: "every `SI.*` field except `SI.COUNT1`"). -/
def granOf (old : Gran) : SiGroup → Gran
  | .m1On h c w f t => switched h (c.setWidth 9) w f t
  | .m1Off h c w f t => plain h (c.setWidth 9) w f t
  | .lsfOn h c w t => switched h c w false t
  | .lsfOff h c w t => plain h c w false t
where
  /-- `WIN_SWITCH = 1`. -/
  switched (h : GroupHead) (sfc : BitVec 9) (w : SwitchOn) (preflag : Bool) (t : GroupTail) : Gran :=
    let r0 : BitVec 4 := if w.blockType = .short ∧ w.mixed = false then 8 else 7
    { part23Length := h.part23Length, bigValues := h.bigValues, globalGain := h.globalGain, scalefacCompress := sfc
      winSwitch := true, blockType := w.blockType, mixed := w.mixed
      table0 := w.table0, table1 := w.table1, table2 := 0
      gain0 := w.gain0, gain1 := w.gain1, gain2 := w.gain2
      region0 := r0, region1 := 20 - r0
      preflag := preflag, scalefacScale := t.scalefacScale, count1Table := t.count1Table, count1 := old.count1 }
  /-- `WIN_SWITCH = 0`. -/
  plain (h : GroupHead) (sfc : BitVec 9) (w : SwitchOff) (preflag : Bool) (t : GroupTail) : Gran :=
    { part23Length := h.part23Length, bigValues := h.bigValues, globalGain := h.globalGain, scalefacCompress := sfc
      winSwitch := false, blockType := .normal, mixed := false
      table0 := w.table0, table1 := w.table1, table2 := w.table2
      gain0 := 0, gain1 := 0, gain2 := 0
      region0 := w.region0, region1 := w.region1.setWidth 4
      preflag := preflag, scalefacScale := t.scalefacScale, count1Table := t.count1Table, count1 := old.count1 }

/-- Write one group (R96, R97, R98). -/
def SideInfo.writeGroup (x : SideInfo) (gr ch : Fin 2) (g : SiGroup) : SideInfo :=
  { x with gran := x.gran.set gr ((x.gran.get gr).set ch (granOf ((x.gran.get gr).get ch) g)) }

/-- Write the frame-level fields (R96 rows 1 to 3; R97: `SCFSI` 0 for both channels). With one coded channel `SCFSI[1]`
is not written (log 30). -/
def SideInfo.writeHead (x : SideInfo) : SiHead → SideInfo
  | .m1Mono d p a => { x with mainDataBegin := d, priv := p, scfsi := x.scfsi.set 0 a }
  | .m1Stereo d p a e => { x with mainDataBegin := d, priv := p.setWidth 5, scfsi := ⟨a, e⟩ }
  | .lsfMono d p => { x with mainDataBegin := d.setWidth 9, priv := p.setWidth 5, scfsi := .both 0 }
  | .lsfStereo d p => { x with mainDataBegin := d.setWidth 9, priv := p.setWidth 5, scfsi := .both 0 }

/-- The frame-level fields of a frame's layout. -/
def takeHead (h : Hdr) (bs : List Bool) : Option (SiHead × List Bool) :=
  if h.lsf then (if h.nch = 1 then takeHeadLsfMono bs else takeHeadLsfStereo bs)
  else (if h.nch = 1 then takeHeadM1Mono bs else takeHeadM1Stereo bs)

/-- The group of a frame's layout. -/
def takeGroup (h : Hdr) (bs : List Bool) : Option (SiGroup × List Bool) :=
  if h.lsf then takeGroupLsf bs else takeGroupM1 bs

/-- The groups in order, each written as it is read. -/
def loadGroups (h : Hdr) : List (Fin 2 × Fin 2) → List Bool → SideInfo → SideInfo
  | [], _, x => x
  | (gr, ch) :: rest, bs, x =>
    match takeGroup h bs with
    | some (g, bs) => loadGroups h rest bs (x.writeGroup gr ch g)
    | none => x

/-- The granules and channels in the image's order (R96 row 4, R97). -/
def groupOrder (h : Hdr) : List (Fin 2 × Fin 2) := h.granules.flatMap fun gr => h.channels.map fun ch => (gr, ch)

/-- Unpack an image of at least `SI_SIZE` bytes (R95 to R98); bytes past `SI_SIZE` are not read (DESIGN CHOICE, log 44). -/
def unpackSi (h : Hdr) (image : List Byte) (x : SideInfo) : SideInfo :=
  match takeHead h (bitsOf image) with
  | some (d, bs) => loadGroups h (groupOrder h) bs (x.writeHead d)
  | none => x

/-- `LOADSI` (R96, R97; 47_frame_control R266 step 3). As a step it can carry an image longer than `SI_SIZE`, which no `FRAME` record
holds (R93, U6): its first `SI_SIZE` bytes are loaded (DESIGN CHOICE, log 44). -/
def opLoadsi (image : List Byte) (s : State) : Res Unit :=
  let s := s.stage .loadsi 0 0
  if s.hdr.frameSize.toNat > 2000 then .raised .frameSize s
  else if image.length < s.hdr.siSize then .raised .siTruncated s
  else .ok () { s with si := unpackSi s.hdr image s.si }

def execLoadsi (image : List Byte) (s : State) : Host.Outcome State Fault Refusal :=
  settle image (fun _ t => t) (opLoadsi image s)

/-- `SI.GROUP.M1.WS1` (R96, R98) Written whatever layout `HDR` asks for (DESIGN CHOICE, log 45). -/
def execSiGroupM1Ws1 (gr ch : Fin 2) (h : GroupHead) (sfc : BitVec 4) (w : SwitchOn) (preflag : Bool) (t : GroupTail)
    (s : State) : Host.Outcome State Fault Refusal :=
  .next { s with si := s.si.writeGroup gr ch (.m1On h sfc w preflag t) }

/-- `SI.GROUP.M1.WS0` (R96, R98) Written whatever layout `HDR` asks for (DESIGN CHOICE, log 45). -/
def execSiGroupM1Ws0 (gr ch : Fin 2) (h : GroupHead) (sfc : BitVec 4) (w : SwitchOff) (preflag : Bool) (t : GroupTail)
    (s : State) : Host.Outcome State Fault Refusal :=
  .next { s with si := s.si.writeGroup gr ch (.m1Off h sfc w preflag t) }

/-- `SI.GROUP.LSF.WS1` (R97, R98), granule 0 Written whatever layout `HDR` asks for (DESIGN CHOICE, log 45). -/
def execSiGroupLsfWs1 (ch : Fin 2) (h : GroupHead) (sfc : BitVec 9) (w : SwitchOn) (t : GroupTail) (s : State) :
    Host.Outcome State Fault Refusal :=
  .next { s with si := s.si.writeGroup 0 ch (.lsfOn h sfc w t) }

/-- `SI.GROUP.LSF.WS0` (R97, R98), granule 0 Written whatever layout `HDR` asks for (DESIGN CHOICE, log 45). -/
def execSiGroupLsfWs0 (ch : Fin 2) (h : GroupHead) (sfc : BitVec 9) (w : SwitchOff) (t : GroupTail) (s : State) :
    Host.Outcome State Fault Refusal :=
  .next { s with si := s.si.writeGroup 0 ch (.lsfOff h sfc w t) }

/-- `SI.PREFIX.M1.MONO` (R96 rows 1 to 3) Written whatever layout `HDR` asks for (DESIGN CHOICE, log 45). -/
def execSiHeadM1Mono (mdb : BitVec 9) (priv : BitVec 5) (scfsi0 : BitVec 4) (s : State) : Host.Outcome State Fault Refusal :=
  .next { s with si := s.si.writeHead (.m1Mono mdb priv scfsi0) }

/-- `SI.PREFIX.M1.STEREO` (R96 rows 1 to 3) Written whatever layout `HDR` asks for (DESIGN CHOICE, log 45). -/
def execSiHeadM1Stereo (mdb : BitVec 9) (priv : BitVec 3) (scfsi0 scfsi1 : BitVec 4) (s : State) :
    Host.Outcome State Fault Refusal :=
  .next { s with si := s.si.writeHead (.m1Stereo mdb priv scfsi0 scfsi1) }

/-- `SI.PREFIX.LSF.MONO` (R97) Written whatever layout `HDR` asks for (DESIGN CHOICE, log 45). -/
def execSiHeadLsfMono (mdb : BitVec 8) (priv : BitVec 1) (s : State) : Host.Outcome State Fault Refusal :=
  .next { s with si := s.si.writeHead (.lsfMono mdb priv) }

/-- `SI.PREFIX.LSF.STEREO` (R97) Written whatever layout `HDR` asks for (DESIGN CHOICE, log 45). -/
def execSiHeadLsfStereo (mdb : BitVec 8) (priv : BitVec 2) (s : State) : Host.Outcome State Fault Refusal :=
  .next { s with si := s.si.writeHead (.lsfStereo mdb priv) }

/-- The host's validity check of a header whose sync pattern is right (R94). The codes of the reserved version (0b01) and
layer (0b00) are PRESUMED (log 23). -/
def headerValid (h : HeaderWord) : Bool :=
  h.version != 0b01#2 && h.layer != 0b00#2 && h.bitrate != 15#4 && decide (h.sfreq.toNat < 3) && h.emphasis != 2#2

/-- `HDR.*` from a header (R94); the frame size by the formula the spec does not give (log 23). -/
def headerHdr (h : HeaderWord) : Hdr :=
  { lsf := h.version != 0b11#2
    sfreq := if v : h.sfreq.toNat < 3 then ⟨h.sfreq.toNat, v⟩ else 0
    mode := h.mode
    modeExt := h.modeExt
    prot := h.protection
    frameSize := Config.frameSize (h.version != 0b11#2) h.bitrate h.sfreq h.padding }

/-- `HEADER` (R94): the host writes `HDR.*`; a header that fails the check changes nothing. -/
def execHeader (h : HeaderWord) (s : State) : Host.Outcome State Fault Refusal :=
  .next (if headerValid h then { s with hdr := headerHdr h } else s)

end Sys2Proof.Machine
end

