-- ==== Sys2Proof/Machine/Stereo.lean ====
section
/-! DEFINITION. `STEREO` with `ST.MS` and `ST.IS` (44_stereo), line by line (log 31). -/

namespace Sys2Proof.Machine

/-- `ST.IS(m, p)` (R213). -/
def stIs (m : F32) (p : Nat) : F32 × F32 := (fMul m (isRatio p).1, fMul m (isRatio p).2)

/-- `ST.MS(a, b)` (R215). -/
def stMs (a b : F32) : F32 × F32 := (fMul (fAdd a b) invSqrt2, fMul (fSub a b) invSqrt2)

/-- The block structures of the two channels differ (R212, R217). -/
def stereoMismatch (s : State) (gr : Fin 2) : Bool :=
  (s.gran gr 0).isShort != (s.gran gr 1).isShort ||
    ((s.gran gr 0).isShort && (s.gran gr 0).mixed != (s.gran gr 1).mixed)

/-- A position below 7 (R211). -/
def position (p : BitVec 4) : Option Nat := if p.toNat < 7 then some p.toNat else none

/-- The position of line `i` in long band `b`, where the band is eligible (R212, `mark_long`). -/
def markLong (s : State) (gr : Fin 2) (b : Nat) : Option Nat :=
  if edge s.longRow b ≥ (s.gran gr 1).count1.toNat then position (s.scfLong gr 1 b) else none

/-- The position of line `i` in short band `b`, where the band is eligible: line `3*s[b] + 3*j + win` is window `win`'s (R212,
`mark_short`). -/
def markShort (s : State) (gr : Fin 2) (b i : Nat) : Option Nat :=
  let base := 3 * edge s.shortRow b
  if base ≥ (s.gran gr 1).count1.toNat then position (s.scfShort gr 1 b ((i - base) % 3)) else none

/-- `isp[i]` (R212): long bands 0..20; or short bands 0..11; or the long prefix and short bands 3..11. -/
def intensity (s : State) (gr : Fin 2) (i : Nat) : Option Nat :=
  let b := bandOf s.longRow i
  let c := bandOf (s.shortRow.map (3 * ·)) i
  if (s.gran gr 0).isShort = false then (if b < 21 then markLong s gr b else none)
  else if (s.gran gr 0).mixed = false then (if c < 12 then markShort s gr c i else none)
  else if edge s.longRow (b + 1) ≤ 36 then markLong s gr b
  else if 3 ≤ c ∧ c < 12 then markShort s gr c i
  else none

/-- `max_pos` (R210). -/
def maxPos (s : State) (gr : Fin 2) : Nat := max (s.gran gr 0).count1.toNat (s.gran gr 1).count1.toNat

/-- Line `i` of both channels after `STEREO` (R210, R211). Mid/side stops at `max_pos`, as R210 says; R216(b) lets it run over every
line that is not an intensity line, holding the lines from `max_pos` on to be 0, which they need not be once `REORD` has run (DESIGN
CHOICE, log 48). -/
def stereoValue (s : State) (gr : Fin 2) (i : Nat) : F32 × F32 :=
  let a := s.line gr 0 i
  let b := s.line gr 1 i
  match (if s.hdr.isOn then intensity s gr i else none) with
  | some p => stIs a p
  | none => if s.hdr.msOn ∧ i < maxPos s gr then stMs a b else (a, b)

/-- `STEREO gr` (R210 to R218). -/
def opStereo (gr : Fin 2) (s : State) : Res Unit :=
  let s := s.stage .stereo gr 0
  if s.hdr.mode ≠ .joint then .ok () s
  else if s.hdr.msOn = false ∧ s.hdr.isOn = false then .ok () s
  else if s.hdr.isOn ∧ stereoMismatch s gr then .raised .stereoBlockMismatch s
  else
    .ok () ((s.setLines gr 0 (.tab 576 fun i => (stereoValue s gr i).1)).setLines gr 1
      (.tab 576 fun i => (stereoValue s gr i).2))

def execStereo (gr : Fin 2) (s : State) : Host.Outcome State Fault Refusal := run (opStereo gr s)

/-- `ST.MS(a, b)` (R215). -/
def execStMs (a b : F32) (s : State) : Host.Outcome State Fault Refusal :=
  .next (s.returns (.vals [(stMs a b).1, (stMs a b).2]))

/-- `ST.IS(m, p)` (R213). -/
def execStIs (m : F32) (p : Fin 7) (s : State) : Host.Outcome State Fault Refusal :=
  .next (s.returns (.vals [(stIs m p.val).1, (stIs m p.val).2]))

end Sys2Proof.Machine
end

