-- ==== Sys2Proof/Machine/Synthesis.lean ====
section
/-! DEFINITION. `SYNTH`, `PCM.PACK` and `PcmConvert` (46_synthesis_pcm). -/

namespace Sys2Proof.Machine

/-- `ofInt(32767)` (R256). -/
def pcmScale : F32 := fOfInt 32767

/-- The integer nearest to a finite value, a tie away from zero (R256). -/
def nearest (y : F32) : Int :=
  let n : Nat := (2 * fUnits y + 2 ^ 149) / 2 ^ 150
  if fSign y then -(n : Int) else n

/-- Clip to 16 bits signed (R256). -/
def clip16 (n : Int) : Int := if n > 32767 then 32767 else if n < -32768 then -32768 else n

/-- `PcmConvert(x)` as the 16 bits of the sample (R256, R257). "The default is defined on finite values only": where the
product is not finite the sample is free (log 16). -/
def pcmConvert (x : F32) : BitVec 16 :=
  let y := fMul x pcmScale
  if fFinite y then BitVec.ofInt 16 (clip16 (nearest y)) else Config.pcmUnstated x

/-- The output channels of a coded channel (R258); for a channel the frame lacks (`ch = 1`, `NCH = 1`) both too (DESIGN CHOICE,
log 37). -/
def outputs (h : Hdr) (ch : Fin 2) : List (Fin 2) := if h.nch = 1 then [0, 1] else [ch]

/-- The place of a sample in `PCM` (20_memory R69). -/
def pcmBase (gr : Fin 2) (t : Nat) (c : Fin 2) : Nat := 2304 * gr.val + 4 * t + 2 * c.val

/-- One sample stored little-endian at `base` (R257). -/
def storeSample (base : Nat) (u : BitVec 16) (m : Memory) : Memory :=
  Memory.write (Memory.write m base (u.extractLsb' 0 8)) (base + 1) (u.extractLsb' 8 8)

/-- `PCM.PACK(gr, ch, t, x)` (R257, R258). For a granule or a channel the frame lacks it stores all the same, granule 1 at
2304 and up (DESIGN CHOICE, log 37). -/
def packSample (gr ch : Fin 2) (t : Nat) (x : F32) (s : State) : State :=
  { s with pcm := (outputs s.hdr ch).foldl (fun m c => storeSample (pcmBase gr t c) (pcmConvert x) m) s.pcm }

/-- The history after the shift and the matrixing of step `ss` (R251, R252). -/
def synthHistory (s : State) (gr ch : Fin 2) (ss : Nat) : History :=
  .tab 1024 fun j =>
    if j < 64 then fSum 32 fun k => fMul (nwin j k) (s.line gr ch (18 * k + ss)) else s.hist ch (j - 64)

/-- `U[i]` (R253). -/
def gather (s : State) (ch : Fin 2) (i : Nat) : F32 :=
  if i % 64 < 32 then s.hist ch (128 * (i / 64) + i % 64) else s.hist ch (128 * (i / 64) + 96 + (i % 64 - 32))

/-- Sample `j` of a step: window and sum (R254, R255). -/
def synthSample (s : State) (ch : Fin 2) (j : Nat) : F32 :=
  fSum 16 fun i => fMul (gather s ch (j + 32 * i)) (synthD (j + 32 * i))

/-- One step (R250). -/
def synthStep (gr ch : Fin 2) (ss : Nat) (s : State) : State :=
  let s := s.setHist ch (synthHistory s gr ch ss)
  (List.range 32).foldl (fun t j => packSample gr ch (32 * ss + j) (synthSample t ch j) t) s

/-- `SYNTH gr ch` (R250), also for a granule or a channel the frame lacks (DESIGN CHOICE, log 37). -/
def opSynth (gr ch : Fin 2) (s : State) : Res Unit :=
  .ok () ((List.range 18).foldl (fun t ss => synthStep gr ch ss t) (s.stage .synth gr ch))

def execSynth (gr ch : Fin 2) (s : State) : Host.Outcome State Fault Refusal := run (opSynth gr ch s)

/-- `PCM.PACK` of sample `i` of step `ss`, time index `32*ss + i` (R255, R257). -/
def execPcmPack (gr : Fin 2) (ss : Fin 18) (i : Fin 32) (ch : Fin 2) (x : F32) (s : State) :
    Host.Outcome State Fault Refusal :=
  .next (packSample gr ch (32 * ss.val + i.val) x s)

/-- `PcmConvert(x)` (R256). -/
def execPcmConvert (x : F32) (s : State) : Host.Outcome State Fault Refusal :=
  .next (s.returns (.ints [(pcmConvert x).toInt]))

end Sys2Proof.Machine
end

