-- ==== Sys2Proof/Machine/Control.lean ====
section
/-! DEFINITION. `IDLE`, the commands `RESET` and `FRAME`, and `PRIME` (47_frame_control). -/

namespace Sys2Proof.Machine

/-- Step 2 of `FRAME` (R266). -/
def frameSetup (r : FrameRec) (s : State) : State := { s with status := s.status.startFrame, hdr := r.hdr }

/-- Steps 6 and 7: skip or splice (R266). -/
def reservoir (main : List Byte) (s : State) : Res Unit :=
  if s.si.mainDataBegin.toNat > s.rsv.length then opRsvAppend main s else opRsvSplice main s

/-- Parts 2 and 3 of one granule and channel (R266 step 9). -/
def parseOne (gr ch : Fin 2) (s : State) : Res Unit :=
  (if s.hdr.lsf then opScfM2 ch s else opScfM1 gr ch s).andThen fun start s => opHufGranule gr ch start s

/-- Step 9 (R266). -/
def parseMain (s : State) : Res Unit := forEach (groupOrder s.hdr) (fun g => parseOne g.1 g.2) s

/-- The stages of one channel before `STEREO` (R266 step 10). -/
def beforeStereo (gr ch : Fin 2) (s : State) : Res Unit :=
  (opReq gr ch s).andThen fun _ s => opReord gr ch s

/-- The stages of one channel after `STEREO` (R266 step 10). -/
def afterStereo (gr ch : Fin 2) (s : State) : Res Unit :=
  (opAlias gr ch s).andThen fun _ s =>
  (opHyb gr ch s).andThen fun _ s =>
  (opFinv gr ch s).andThen fun _ s => opSynth gr ch s

/-- One granule of step 10 (R266). -/
def reconstructOne (gr : Fin 2) (s : State) : Res Unit :=
  (forEach s.hdr.channels (beforeStereo gr) s).andThen fun _ s =>
  (opStereo gr s).andThen fun _ s => forEach s.hdr.channels (afterStereo gr) s

/-- Step 10 (R266). -/
def reconstruct (s : State) : Res Unit := forEach s.hdr.granules reconstructOne s

/-- Steps 3 to 10 (R266). -/
def opFrame (r : FrameRec) (s : State) : Res Unit :=
  (opLoadsi r.siImage s).andThen fun _ s =>
  (opRsvCheck s).andThen fun _ s =>
  (opRsvRecv r.main s).andThen fun _ s =>
  (reservoir r.main s).andThen fun _ s =>
  (opScfClear s).andThen fun _ s =>
  (parseMain s).andThen fun _ s => reconstruct s

/-- Step 11 (R266, R270, R271). -/
def frameEnd (s : State) : State :=
  { s with status := s.status.endPcm, seq := .idle, outcome := .pcm (pcmBytes s.pcm s.hdr.pcmLen) }

/-- `FRAME rec` (R266). With `FAULT` set the pending fault is returned again and nothing changes (R293(c)): where a single stage has left
`SEQ` at a stage, it stays there, though R271 has `SEQ` idle when a command returns (DESIGN CHOICE, log 47). The free values of a fault
take `SI_IMAGE ++ MAIN` as one byte string (DESIGN CHOICE, log 41). -/
def frameNext (r : FrameRec) (s : State) : State :=
  if s.status.fault then { s with outcome := Cause.outcome s.cause }
  else
    match opFrame r (frameSetup r s) with
    | .ok _ t => frameEnd t
    | .raised c t => takeException c (r.siImage ++ r.main) t

/-- `IDLE`: no operation in progress (10_state R26). -/
def execIdle (s : State) : Host.Outcome State Fault Refusal := .next { s with seq := .idle }

/-- `RESET` (R267). -/
def execReset (s : State) : Host.Outcome State Fault Refusal := .next (resetState s)

/-- `FRAME`; a record outside the record's type is refused (U6, log 28). -/
def execFrame (r : FrameRec) (s : State) : Host.Outcome State Fault Refusal :=
  if r.wf then .next (frameNext r s) else .refused .recordOutsideType

/-- The frames `PRIME k` runs: `max(k-2, 0)`; `k-1` where `k >= 2`; `k` (R274). -/
def primeIndices (k : Nat) : List Nat := if 2 ≤ k then [k - 2, k - 1, k] else [0, k]

/-- `PRIME k` over the host's frames (R274, 30_encoding R108; log 24). -/
def execPrime (k : Nat) (frames : List FrameRec) (s : State) : Host.Outcome State Fault Refusal :=
  if 1 ≤ k ∧ k < frames.length ∧ (primeIndices k).all (fun i => (frames[i]?).all FrameRec.wf) then
    .next (((primeIndices k).filterMap fun i => frames[i]?).foldl (fun t r => frameNext r t) (resetState s))
  else .refused .recordOutsideType

end Sys2Proof.Machine
end

