-- ==== Sys2Proof/Machine/PairTables.lean ====
section
/-! DEFINITION. The codebook rows `HUFF_PAIR[t]` (42_huffman R167, R169, R177, R178): a pair decoded with the row's codebook,
which is `HUF.PAIR t` (log 22). Rows 4 and 14 raise `HUFF_TABLE_RESERVED` (R177). -/

namespace Sys2Proof.Machine

def execHuffPair0 (s : State) : Host.Outcome State Fault Refusal := runRet retPair (opHufPair 0 s)

def execHuffPair1 (s : State) : Host.Outcome State Fault Refusal := runRet retPair (opHufPair 1 s)

def execHuffPair2 (s : State) : Host.Outcome State Fault Refusal := runRet retPair (opHufPair 2 s)

def execHuffPair3 (s : State) : Host.Outcome State Fault Refusal := runRet retPair (opHufPair 3 s)

def execHuffPair4 (s : State) : Host.Outcome State Fault Refusal := runRet retPair (opHufPair 4 s)

def execHuffPair5 (s : State) : Host.Outcome State Fault Refusal := runRet retPair (opHufPair 5 s)

def execHuffPair6 (s : State) : Host.Outcome State Fault Refusal := runRet retPair (opHufPair 6 s)

def execHuffPair7 (s : State) : Host.Outcome State Fault Refusal := runRet retPair (opHufPair 7 s)

def execHuffPair8 (s : State) : Host.Outcome State Fault Refusal := runRet retPair (opHufPair 8 s)

def execHuffPair9 (s : State) : Host.Outcome State Fault Refusal := runRet retPair (opHufPair 9 s)

def execHuffPair10 (s : State) : Host.Outcome State Fault Refusal := runRet retPair (opHufPair 10 s)

def execHuffPair11 (s : State) : Host.Outcome State Fault Refusal := runRet retPair (opHufPair 11 s)

def execHuffPair12 (s : State) : Host.Outcome State Fault Refusal := runRet retPair (opHufPair 12 s)

def execHuffPair13 (s : State) : Host.Outcome State Fault Refusal := runRet retPair (opHufPair 13 s)

def execHuffPair14 (s : State) : Host.Outcome State Fault Refusal := runRet retPair (opHufPair 14 s)

def execHuffPair15 (s : State) : Host.Outcome State Fault Refusal := runRet retPair (opHufPair 15 s)

def execHuffPair16 (s : State) : Host.Outcome State Fault Refusal := runRet retPair (opHufPair 16 s)

def execHuffPair17 (s : State) : Host.Outcome State Fault Refusal := runRet retPair (opHufPair 17 s)

def execHuffPair18 (s : State) : Host.Outcome State Fault Refusal := runRet retPair (opHufPair 18 s)

def execHuffPair19 (s : State) : Host.Outcome State Fault Refusal := runRet retPair (opHufPair 19 s)

def execHuffPair20 (s : State) : Host.Outcome State Fault Refusal := runRet retPair (opHufPair 20 s)

def execHuffPair21 (s : State) : Host.Outcome State Fault Refusal := runRet retPair (opHufPair 21 s)

def execHuffPair22 (s : State) : Host.Outcome State Fault Refusal := runRet retPair (opHufPair 22 s)

def execHuffPair23 (s : State) : Host.Outcome State Fault Refusal := runRet retPair (opHufPair 23 s)

def execHuffPair24 (s : State) : Host.Outcome State Fault Refusal := runRet retPair (opHufPair 24 s)

def execHuffPair25 (s : State) : Host.Outcome State Fault Refusal := runRet retPair (opHufPair 25 s)

def execHuffPair26 (s : State) : Host.Outcome State Fault Refusal := runRet retPair (opHufPair 26 s)

def execHuffPair27 (s : State) : Host.Outcome State Fault Refusal := runRet retPair (opHufPair 27 s)

def execHuffPair28 (s : State) : Host.Outcome State Fault Refusal := runRet retPair (opHufPair 28 s)

def execHuffPair29 (s : State) : Host.Outcome State Fault Refusal := runRet retPair (opHufPair 29 s)

def execHuffPair30 (s : State) : Host.Outcome State Fault Refusal := runRet retPair (opHufPair 30 s)

def execHuffPair31 (s : State) : Host.Outcome State Fault Refusal := runRet retPair (opHufPair 31 s)

end Sys2Proof.Machine
end

