-- ==== Sys2Proof/Machine/Dispatch.lean ====
section
/-! DEFINITION. One arm per instruction. -/

namespace Sys2Proof.Machine

def exec (i : Instr) (s : State) : Host.Outcome State Fault Refusal :=
  match i with
  | .idle => Sys2Proof.Machine.execIdle s
  | .reset => Sys2Proof.Machine.execReset s
  | .frame r => Sys2Proof.Machine.execFrame r s
  | .loadsi image => Sys2Proof.Machine.execLoadsi image s
  | .bcRead n => Sys2Proof.Machine.execBcRead n s
  | .bcPos => Sys2Proof.Machine.execBcPos s
  | .bcSetpos pos => Sys2Proof.Machine.execBcSetpos pos s
  | .rsvCheck => Sys2Proof.Machine.execRsvCheck s
  | .rsvRecv main => Sys2Proof.Machine.execRsvRecv main s
  | .rsvAppend main => Sys2Proof.Machine.execRsvAppend main s
  | .rsvSplice main => Sys2Proof.Machine.execRsvSplice main s
  | .scfClear => Sys2Proof.Machine.execScfClear s
  | .scfM1 gr ch => Sys2Proof.Machine.execScfM1 gr ch s
  | .scfM2 ch => Sys2Proof.Machine.execScfM2 ch s
  | .hufGranule gr ch part2Start => Sys2Proof.Machine.execHufGranule gr ch part2Start s
  | .hufBig gr ch => Sys2Proof.Machine.execHufBig gr ch s
  | .hufCnt1 gr ch part2Start => Sys2Proof.Machine.execHufCnt1 gr ch part2Start s
  | .hufPair t => Sys2Proof.Machine.execHufPair t s
  | .hufQuad q => Sys2Proof.Machine.execHufQuad q s
  | .req gr ch => Sys2Proof.Machine.execReq gr ch s
  | .reord gr ch => Sys2Proof.Machine.execReord gr ch s
  | .stereo gr => Sys2Proof.Machine.execStereo gr s
  | .antialias gr ch => Sys2Proof.Machine.execAlias gr ch s
  | .hyb gr ch => Sys2Proof.Machine.execHyb gr ch s
  | .finv gr ch => Sys2Proof.Machine.execFinv gr ch s
  | .synth gr ch => Sys2Proof.Machine.execSynth gr ch s
  | .pcmPack gr ss k ch x => Sys2Proof.Machine.execPcmPack gr ss k ch x s
  | .reqL gr ch q sfb => Sys2Proof.Machine.execReqL gr ch q sfb s
  | .reqS gr ch q sfb win => Sys2Proof.Machine.execReqS gr ch q sfb win s
  | .stMs a b => Sys2Proof.Machine.execStMs a b s
  | .stIs m p => Sys2Proof.Machine.execStIs m p s
  | .imdctL x bt => Sys2Proof.Machine.execImdctL x bt s
  | .imdctS x => Sys2Proof.Machine.execImdctS x s
  | .ola gr ch sb raw => Sys2Proof.Machine.execOla gr ch sb raw s
  | .pcmConvert x => Sys2Proof.Machine.execPcmConvert x s
  | .prime k frames => Sys2Proof.Machine.execPrime k frames s
  | .getBits n => Sys2Proof.Machine.execGetBits n s
  | .siGroupM1Ws1 gr ch h sfc w preflag t => Sys2Proof.Machine.execSiGroupM1Ws1 gr ch h sfc w preflag t s
  | .siGroupM1Ws0 gr ch h sfc w preflag t => Sys2Proof.Machine.execSiGroupM1Ws0 gr ch h sfc w preflag t s
  | .siGroupLsfWs1 ch h sfc w t => Sys2Proof.Machine.execSiGroupLsfWs1 ch h sfc w t s
  | .siGroupLsfWs0 ch h sfc w t => Sys2Proof.Machine.execSiGroupLsfWs0 ch h sfc w t s
  | .siHeadM1Mono mdb priv scfsi0 => Sys2Proof.Machine.execSiHeadM1Mono mdb priv scfsi0 s
  | .siHeadM1Stereo mdb priv scfsi0 scfsi1 => Sys2Proof.Machine.execSiHeadM1Stereo mdb priv scfsi0 scfsi1 s
  | .siHeadLsfMono mdb priv => Sys2Proof.Machine.execSiHeadLsfMono mdb priv s
  | .siHeadLsfStereo mdb priv => Sys2Proof.Machine.execSiHeadLsfStereo mdb priv s
  | .header h => Sys2Proof.Machine.execHeader h s
  | .pairItem t x0 y0 linX linY negX negY => Sys2Proof.Machine.execPairItem t x0 y0 linX linY negX negY s
  | .quadItem q value neg => Sys2Proof.Machine.execQuadItem q value neg s
  | .scfFieldM1 gr ch second => Sys2Proof.Machine.execScfFieldM1 gr ch second s
  | .scfFieldM2 ch part => Sys2Proof.Machine.execScfFieldM2 ch part s
  | .quadA0000 => Sys2Proof.Machine.execQuadA0000 s
  | .quadA0001 neg => Sys2Proof.Machine.execQuadA0001 neg s
  | .quadA0010 neg => Sys2Proof.Machine.execQuadA0010 neg s
  | .quadA0011 neg => Sys2Proof.Machine.execQuadA0011 neg s
  | .quadA0100 neg => Sys2Proof.Machine.execQuadA0100 neg s
  | .quadA0101 neg => Sys2Proof.Machine.execQuadA0101 neg s
  | .quadA0110 neg => Sys2Proof.Machine.execQuadA0110 neg s
  | .quadA0111 neg => Sys2Proof.Machine.execQuadA0111 neg s
  | .quadA1000 neg => Sys2Proof.Machine.execQuadA1000 neg s
  | .quadA1001 neg => Sys2Proof.Machine.execQuadA1001 neg s
  | .quadA1010 neg => Sys2Proof.Machine.execQuadA1010 neg s
  | .quadA1011 neg => Sys2Proof.Machine.execQuadA1011 neg s
  | .quadA1100 neg => Sys2Proof.Machine.execQuadA1100 neg s
  | .quadA1101 neg => Sys2Proof.Machine.execQuadA1101 neg s
  | .quadA1110 neg => Sys2Proof.Machine.execQuadA1110 neg s
  | .quadA1111 neg => Sys2Proof.Machine.execQuadA1111 neg s
  | .quadB0000 => Sys2Proof.Machine.execQuadB0000 s
  | .quadB0001 neg => Sys2Proof.Machine.execQuadB0001 neg s
  | .quadB0010 neg => Sys2Proof.Machine.execQuadB0010 neg s
  | .quadB0011 neg => Sys2Proof.Machine.execQuadB0011 neg s
  | .quadB0100 neg => Sys2Proof.Machine.execQuadB0100 neg s
  | .quadB0101 neg => Sys2Proof.Machine.execQuadB0101 neg s
  | .quadB0110 neg => Sys2Proof.Machine.execQuadB0110 neg s
  | .quadB0111 neg => Sys2Proof.Machine.execQuadB0111 neg s
  | .quadB1000 neg => Sys2Proof.Machine.execQuadB1000 neg s
  | .quadB1001 neg => Sys2Proof.Machine.execQuadB1001 neg s
  | .quadB1010 neg => Sys2Proof.Machine.execQuadB1010 neg s
  | .quadB1011 neg => Sys2Proof.Machine.execQuadB1011 neg s
  | .quadB1100 neg => Sys2Proof.Machine.execQuadB1100 neg s
  | .quadB1101 neg => Sys2Proof.Machine.execQuadB1101 neg s
  | .quadB1110 neg => Sys2Proof.Machine.execQuadB1110 neg s
  | .quadB1111 neg => Sys2Proof.Machine.execQuadB1111 neg s
  | .pairOne00 => Sys2Proof.Machine.execPairOne00 s
  | .pairOne01 negY => Sys2Proof.Machine.execPairOne01 negY s
  | .pairOne10 negX => Sys2Proof.Machine.execPairOne10 negX s
  | .pairOne11 negX negY => Sys2Proof.Machine.execPairOne11 negX negY s
  | .huffPair0 => Sys2Proof.Machine.execHuffPair0 s
  | .huffPair1 => Sys2Proof.Machine.execHuffPair1 s
  | .huffPair2 => Sys2Proof.Machine.execHuffPair2 s
  | .huffPair3 => Sys2Proof.Machine.execHuffPair3 s
  | .huffPair4 => Sys2Proof.Machine.execHuffPair4 s
  | .huffPair5 => Sys2Proof.Machine.execHuffPair5 s
  | .huffPair6 => Sys2Proof.Machine.execHuffPair6 s
  | .huffPair7 => Sys2Proof.Machine.execHuffPair7 s
  | .huffPair8 => Sys2Proof.Machine.execHuffPair8 s
  | .huffPair9 => Sys2Proof.Machine.execHuffPair9 s
  | .huffPair10 => Sys2Proof.Machine.execHuffPair10 s
  | .huffPair11 => Sys2Proof.Machine.execHuffPair11 s
  | .huffPair12 => Sys2Proof.Machine.execHuffPair12 s
  | .huffPair13 => Sys2Proof.Machine.execHuffPair13 s
  | .huffPair14 => Sys2Proof.Machine.execHuffPair14 s
  | .huffPair15 => Sys2Proof.Machine.execHuffPair15 s
  | .huffPair16 => Sys2Proof.Machine.execHuffPair16 s
  | .huffPair17 => Sys2Proof.Machine.execHuffPair17 s
  | .huffPair18 => Sys2Proof.Machine.execHuffPair18 s
  | .huffPair19 => Sys2Proof.Machine.execHuffPair19 s
  | .huffPair20 => Sys2Proof.Machine.execHuffPair20 s
  | .huffPair21 => Sys2Proof.Machine.execHuffPair21 s
  | .huffPair22 => Sys2Proof.Machine.execHuffPair22 s
  | .huffPair23 => Sys2Proof.Machine.execHuffPair23 s
  | .huffPair24 => Sys2Proof.Machine.execHuffPair24 s
  | .huffPair25 => Sys2Proof.Machine.execHuffPair25 s
  | .huffPair26 => Sys2Proof.Machine.execHuffPair26 s
  | .huffPair27 => Sys2Proof.Machine.execHuffPair27 s
  | .huffPair28 => Sys2Proof.Machine.execHuffPair28 s
  | .huffPair29 => Sys2Proof.Machine.execHuffPair29 s
  | .huffPair30 => Sys2Proof.Machine.execHuffPair30 s
  | .huffPair31 => Sys2Proof.Machine.execHuffPair31 s
  | .causeFrameSize => Sys2Proof.Machine.execCauseFrameSize s
  | .causeMainSize => Sys2Proof.Machine.execCauseMainSize s
  | .causeBitsOverrun => Sys2Proof.Machine.execCauseBitsOverrun s
  | .causeScfCount => Sys2Proof.Machine.execCauseScfCount s
  | .causeHuffTableReserved => Sys2Proof.Machine.execCauseHuffTableReserved s
  | .causeHuffIllegal => Sys2Proof.Machine.execCauseHuffIllegal s
  | .causeLineRange => Sys2Proof.Machine.execCauseLineRange s
  | .causeRegionRange => Sys2Proof.Machine.execCauseRegionRange s
  | .causeStereoBlockMismatch => Sys2Proof.Machine.execCauseStereoBlockMismatch s
  | .causeSiTruncated => Sys2Proof.Machine.execCauseSiTruncated s
  | .causeMainTruncated => Sys2Proof.Machine.execCauseMainTruncated s
  | .causeRsvInsufficient => Sys2Proof.Machine.execCauseRsvInsufficient s

end Sys2Proof.Machine
end

