-- ==== Sys2Proof/Machine/Step.lean ====
section
/-! DEFINITION. One step of the sequencer: the next thing the host has sent (00_scope R13; log 1). -/

namespace Sys2Proof.Machine

/-- Take the instruction at the front of the port and run it: a host command, or with `bench` on any single operation
(47_frame_control R265; 30_encoding R107; log 4). With an empty port the sequencer is idle and nothing changes. -/
def step (s : State) : Host.Outcome State Fault Refusal :=
  match decode s.port with
  | .ok (i, rest) =>
    if s.bench || i.hostMayIssue then exec i { s with port := rest } else .refused .notACommand
  | .error .empty => .next s
  | .error e => .fault (.undecodable e)

/-- `s` with an opcode-table word at the front of the port, and single operations admitted (logs 1 and 4). -/
def State.withFetchWord (s : State) (nbits w : Nat) : State := { s with port := tableBytes nbits w, bench := true }

end Sys2Proof.Machine
end

