-- ==== Sys2Proof/Safety.lean ====
section
/-! DEFINITION. What counts as a safe state and a safe run. -/

namespace Sys2Proof.Machine

/-- The invariant of the machine: `PCM` keeps its canonical form; `SEQ` and `WHERE` hold stage codes (30_encoding R91);
`PCM_VALID` excludes `FAULT` and `SKIP` (10_state R28, 60_exceptions R293); `FAULT` or `SKIP` comes with a cause (R286). -/
def Inv (s : State) : Prop :=
  Memory.wf s.pcm = true ∧
  s.seq.op.isStage = true ∧ s.whr.op.isStage = true ∧
  (s.status.pcmValid = true → s.status.fault = false ∧ s.status.skip = false) ∧
  (s.status.fault = true ∨ s.status.skip = true → s.cause ≠ .noCause)

/-- A step that neither stops the machine nor has no meaning. -/
def Continues (s : State) : Prop := ∃ t, step s = .next t

/-- A state from which every one of `n` steps continues and keeps the invariant. -/
def SafeRun : Nat → State → Prop
  | 0, s => Inv s
  | n + 1, s => Inv s ∧ ∃ t, step s = .next t ∧ SafeRun n t

end Sys2Proof.Machine
end

