-- ==== Sys2Proof/Certificates/Slice0/Obligations.lean ====
section
/-! DEFINITION. The statements for the provers. A statement that answers `exec i s = .next t` with `t` written as `s` with
some fields replaced is the frame too: every other field is unchanged. -/

open Sys2Proof Sys2Proof.Machine

/-! ### Words the statements share -/

namespace Sys2Proof.Claims

/-- Bit position `p` of a byte sequence: bit `7 - (p % 8)` of byte `p / 8` (00_scope R9). -/
def seqBit (bs : List Byte) (p : Nat) : Bool := (bs.getD (p / 8) 0#8).toNat.testBit (7 - p % 8)

/-- The loop of 40_bitcursor_reservoir R131: `v <- 2 * v + b` for the `n` bits from `p` on. -/
def seqField (bs : List Byte) (p n : Nat) : Nat := (List.range n).foldl (fun v k => 2 * v + (seqBit bs (p + k)).toNat) 0

/-- `n` bits can be read at the cursor without an over-read (R131, R134). -/
def Fits (s : State) (n : Nat) : Prop := n = 0 ∨ s.bitpos + n ≤ 8 * s.md.length

/-- The bits `bits` stand in `MD` at the cursor. -/
def Holds (s : State) (bits : List Bool) : Prop :=
  Fits s bits.length ∧ ∀ k, k < bits.length → seqBit s.md (s.bitpos + k) = bits.getD k false

/-- Every line but those of `XR[gr][ch]` is unchanged. -/
def OtherLines (gr ch : Fin 2) (s t : State) : Prop :=
  ∀ gr' ch' : Fin 2, ¬(gr' = gr ∧ ch' = ch) → t.lines gr' ch' = s.lines gr' ch'

/-- Every register `SI.*[gr'][ch']` of another granule or channel is unchanged. -/
def OtherGrans (gr ch : Fin 2) (s t : State) : Prop :=
  ∀ gr' ch' : Fin 2, ¬(gr' = gr ∧ ch' = ch) → t.gran gr' ch' = s.gran gr' ch'

/-- Whatever a pair codeword can carry (30_encoding R102). -/
structure PairCode where
  x0 : Nat
  y0 : Nat
  linX : Nat
  linY : Nat
  negX : Bool
  negY : Bool
  deriving DecidableEq, Repr

/-- A pair that table `t` can code (30_encoding R102, 42_huffman R169). -/
def PairCode.ok (t : Nat) (c : PairCode) : Bool := wfPairElem t c.x0 c.linX c.negX && wfPairElem t c.y0 c.linY c.negY

/-- Its bits in the stream (30_encoding R102). -/
def PairCode.bits (t : Nat) (c : PairCode) : List Bool := pairItemBits t c.x0 c.y0 c.linX c.linY c.negX c.negY

/-- Its values (30_encoding R104(b), (c)). -/
def PairCode.x (t : Nat) (c : PairCode) : Int := signed (pairMagnitude t c.x0 c.linX) c.negX

def PairCode.y (t : Nat) (c : PairCode) : Int := signed (pairMagnitude t c.y0 c.linY) c.negY

/-- A quadruple with its sign bits. -/
structure QuadCode where
  value : BitVec 4
  neg : BitVec 4
  deriving DecidableEq, Repr

def QuadCode.bits (q : Bool) (c : QuadCode) : List Bool := quadItemBits q c.value c.neg

/-- `region1_start` and `region2_start` with their index checks (42_huffman R172). -/
def regionsOk (g : Gran) : Prop := g.isShort = true ∨ g.region0.toNat + g.region1.toNat + 2 ≤ 22

def tableAt (s : State) (g : Gran) (p : Nat) : Nat :=
  let l := sfbLong s.hdr.lsf s.hdr.sfreq
  let r1 := if g.isShort then 36 else l.getD (g.region0.toNat + 1) 0
  let r2 := if g.isShort then 576 else l.getD (g.region0.toNat + g.region1.toNat + 2) 0
  if p < r1 then g.table0.toNat else if p < r2 then g.table1.toNat else g.table2.toNat

/-- The bits of pairs whose first lines are `p, p + 2, ...`. -/
def pairsBits (table : Nat → Nat) : Nat → List PairCode → List Bool
  | _, [] => []
  | p, c :: cs => c.bits (table p) ++ pairsBits table (p + 2) cs

def pairsOk (table : Nat → Nat) : Nat → List PairCode → Prop
  | _, [] => True
  | p, c :: cs => c.ok (table p) = true ∧ pairsOk table (p + 2) cs

/-- The values of pairs from line `p` on, line by line. -/
def pairsValues (table : Nat → Nat) : Nat → List PairCode → List Int
  | _, [] => []
  | p, c :: cs => c.x (table p) :: c.y (table p) :: pairsValues table (p + 2) cs

def quadsBits (q : Bool) (cs : List QuadCode) : List Bool := cs.flatMap (QuadCode.bits q)

def quadsOk (cs : List QuadCode) : Prop := ∀ c ∈ cs, wfSigns c.value c.neg = true

def quadsValues (cs : List QuadCode) : List Int := cs.flatMap fun c => quadElems c.value c.neg

/-- The quadruples `cs` are those the count1 loop reads from line `p` on with the cursor at `pos`: it is entered before each,
and stops after the last (42_huffman R174). -/
def loopReads (q : Bool) (endPos : Nat) : (p pos : Nat) → List QuadCode → Prop
  | p, pos, [] => ¬(p ≤ 572 ∧ pos < endPos)
  | p, pos, c :: cs => p ≤ 572 ∧ pos < endPos ∧ loopReads q endPos (p + 4) (pos + (c.bits q).length) cs

/-- The group (band set `k` of `SCFSI`) of long band `b` (41_scalefactors R152). -/
def scfsiGroup (b : Nat) : Nat := if b < 6 then 0 else if b < 11 then 1 else if b < 16 then 2 else 3

/-- Band `b` of granule 1 is copied from granule 0 (R152, R155). -/
def copied (s : State) (gr ch : Fin 2) (b : Nat) : Bool := gr = 1 && s.scfsi ch (scfsiGroup b)

/-- The widths of the 21 fields of the long form, in order; a copied band has none (R152). -/
def longWidths (s : State) (gr ch : Fin 2) : List Nat :=
  let w := slen (s.gran gr ch).scalefacCompress.toNat
  (List.range 21).map fun b => if copied s gr ch b then 0 else if b < 11 then w.1 else w.2

/-- The widths of the short bands' fields from band `b0` on: three windows a band (R153, R154). -/
def shortWidths (w : Nat × Nat) (b0 : Nat) : List Nat :=
  (List.range' b0 (12 - b0)).flatMap fun b => List.replicate 3 (if b < 6 then w.1 else w.2)

/-- The widths of the fields of an LSF list (R156). -/
def lsfWidths (n : Nat) (e : Nslen2) : List Nat :=
  [0, 1, 2, 3].flatMap fun i => List.replicate (scfPart n e.d i) (e.slen.getD i 0)

/-- Field `k` of a run of fields that starts at the cursor. -/
def fieldAt (s : State) (ws : List Nat) (k : Nat) : BitVec 4 :=
  BitVec.ofNat 4 (seqField s.md (s.bitpos + (ws.take k).sum) (ws.getD k 0))

/-- A fault of cause `c` raised with `SEQ = pos`, and what it leaves specified (60_exceptions R286, R293(b)). Outside a `FRAME` it can be
raised while `PCM_VALID` is 1 (the model's choice, log 27) and while `FAULT` is 1 (log 40): a statement about a single operation says so. -/
def Faulted (c : Cause) (pos : SeqPos) (t : State) : Prop :=
  t.cause = c ∧ t.whr = pos ∧ t.seq = ⟨.idle, 0, 0⟩ ∧ t.status = ⟨true, false, false⟩ ∧
    t.outcome = (if c.code.toNat < 16 then .formatError c else .unexpectedEos c)

/-- `v` is the finite value `y` of `F` rounded to the nearest integer, a tie away from zero (46_synthesis_pcm R256); `y` is
`fInt y` units of `2^-149`. -/
def NearestAway (y : F32) (n : Int) : Prop :=
  2 * |fInt y - n * 2 ^ 149| ≤ 2 ^ 149 ∧ (2 * |fInt y - n * 2 ^ 149| = 2 ^ 149 → |fInt y| < |n * 2 ^ 149|)

/-- `VVEC[ch]` after `k` steps of `SYNTH` (46_synthesis_pcm R251, R252). -/
def historyAfter (s : State) (gr ch : Fin 2) : Nat → Nat → F32
  | 0, j => s.hist ch j
  | k + 1, j =>
    if j < 64 then fSum 32 fun m => fMul (nwin j m) (s.line gr ch (18 * m + k)) else historyAfter s gr ch k (j - 64)

/-- `U[i]` of a history (R253). -/
def gathered (v : Nat → F32) (i : Nat) : F32 :=
  if i % 64 < 32 then v (128 * (i / 64) + i % 64) else v (128 * (i / 64) + 96 + (i % 64 - 32))

/-- Sample `32*ss + j` (R253, R254, R255). -/
def sampleValue (s : State) (gr ch : Fin 2) (ss j : Nat) : F32 :=
  fSum 16 fun i => fMul (gathered (historyAfter s gr ch (ss + 1)) (j + 32 * i)) (synthD (j + 32 * i))

/-- The output channels (R258). -/
def OutputOf (s : State) (ch c : Fin 2) : Prop := s.hdr.mode = .single ∨ c = ch

/-- The instructions that write `STORE`, `VVEC`, `RSV`, `MD`, `PCM`, `HDR` where no exception and no `RESET` intervenes (R36 to R40,
30_encoding R93). -/
def writesStore : Instr → Bool
  | .hyb _ _ | .ola _ _ _ _ | .frame _ => true
  | _ => false

def writesVvec : Instr → Bool
  | .synth _ _ | .frame _ => true
  | _ => false

def writesRsv : Instr → Bool
  | .rsvAppend _ | .rsvSplice _ | .frame _ => true
  | _ => false

def writesMd : Instr → Bool
  | .rsvSplice _ | .frame _ => true
  | _ => false

def writesPcm : Instr → Bool
  | .pcmPack _ _ _ _ _ | .synth _ _ | .frame _ => true
  | _ => false

def writesHdr : Instr → Bool
  | .header _ | .frame _ => true
  | _ => false

/-- Instructions one after another. -/
def runAll : List Instr → State → Host.Outcome State Fault Refusal
  | [], s => .next s
  | i :: is, s =>
    match exec i s with
    | .next t => runAll is t
    | .fault f => .fault f
    | .refused r => .refused r

end Sys2Proof.Claims

open Sys2Proof.Claims

/-! ### The machine as a whole -/

/-- A step runs the instruction that the port's first bytes decode to, with those bytes taken: a host command (`RESET`, `FRAME`, or
their sequence `PRIME`) always, any other instruction where single operations are admitted (`bench`), and is refused otherwise: the
host has no other way to change the state (47_frame_control R265). With an empty port nothing changes; bytes that decode to nothing
stop the machine. (The port and `bench` are the model's choice, logs 1, 4 and 35.) -/
def Obligations.StepRunsDecoded : Prop :=
  ∀ s : State,
    (∀ i rest, decode s.port = .ok (i, rest) →
      (s.bench = true ∨ (i = .reset ∨ (∃ r, i = .frame r) ∨ ∃ k fs, i = .prime k fs) → step s = exec i { s with port := rest }) ∧
      (s.bench = false → ¬(i = .reset ∨ (∃ r, i = .frame r) ∨ ∃ k fs, i = .prime k fs) → step s = .refused .notACommand)) ∧
    (s.port = [] → step s = .next s) ∧
    (∀ e, e ≠ .empty → decode s.port = .error e → step s = .fault (.undecodable e))

/-- Words written out from the spec's encodings: OPIDs (30_encoding R92), a header (R94; 93_implementation_defined G31), codewords of
tables A and B and of pair table 1 (42_huffman R170, R178), a cause code (60_exceptions R287), a side-information prefix (R96; 95_test_vectors V5). The
bytes before them (OPID byte, context byte) are the model's port (log 2). -/
def Obligations.DecodeSpecWords : Prop :=
  decode [0x01#8] = .ok (.reset, []) ∧
  decode [0x20#8, 3#8] = .ok (.req 1 1, []) ∧
  decode [0xFF#8, 0xFB#8, 0x90#8, 0x00#8] =
    .ok (.header ⟨0b11#2, 0b01#2, true, 0b1001#4, 0#2, false, false, .stereo, 0#2, false, false, 0#2⟩, []) ∧
  decode [0x5C#8, 0b00010110#8, 0x00#8] = .ok (.quadA0101 0b0100#4, []) ∧
  decode [0x5D#8, 0b01100100#8, 0x00#8] = .ok (.quadB1001 0b0001#4, []) ∧
  decode [0x5E#8, 0b00001000#8] = .ok (.pairOne11 false true, []) ∧
  decode [0x60#8, 0x11#8] = .ok (.causeMainTruncated, []) ∧
  decode [0x52#8, 0xAA#8, 0xFE#8, 0x40#8] = .ok (.siHeadM1Mono 341#9 31#5 0b1001#4, [])

/-- Decoding is the inverse of encoding, for every well-formed instruction, every operand at every value, whatever follows. The
layout of operand bytes is the model's (logs 1 to 3). -/
def Obligations.DecodeEncode : Prop :=
  ∀ (i : Instr) (rest : List Byte), i.wf = true → decode (encode i ++ rest) = .ok (i, rest)

/-- No unassigned OPID is an instruction, and no assigned one is refused for its code (that OPIDs are read at all is the model's
choice, log 2). -/
def Obligations.UnassignedOpids : Prop :=
  (∀ c : Byte, c.toNat < 64 → ∀ rest : List Byte,
    (c.toNat = 0x07 ∨ (0x0C ≤ c.toNat ∧ c.toNat ≤ 0x0F) ∨ (0x13 ≤ c.toNat ∧ c.toNat ≤ 0x17) ∨
      (0x1D ≤ c.toNat ∧ c.toNat ≤ 0x1F) ∨ 0x28 ≤ c.toNat) →
      decode (c :: rest) = .error (.unassigned c)) ∧
  (∀ (o : Opid) (rest : List Byte) (c : Byte), decode (opByte o :: rest) ≠ .error (.unassigned c))

/-- The invariant holds after reset (`PCM` with nothing listed is the model's choice, log 13). -/
def Obligations.InvariantAtReset : Prop := Inv State.reset

/-- Every step keeps the invariant (`Sys2Proof.Machine.Inv`); that a raise outside a `FRAME` clears `PCM_VALID`, and that one while `FAULT` is
1 replaces `CAUSE`, is the model's choice (logs 27, 40). -/
def Obligations.InvariantKept : Prop := ∀ s t : State, Inv s → step s = .next t → Inv t

/-- `FAULT` is sticky: only `RESET` (and `PRIME`, which begins with it) clears it; a `FRAME` meanwhile changes nothing and returns the
pending outcome again. (The model's choice: `SEQ` at a stage staying there, log 47; a single step that raises while `FAULT` is 1 keeping it,
log 40.) -/
def Obligations.FaultSticky : Prop :=
  (∀ (i : Instr) (s t : State), exec i s = .next t → s.status.fault = true → t.status.fault = false →
    i = .reset ∨ ∃ k fs, i = .prime k fs) ∧
  (∀ (r : FrameRec) (s : State), r.wf = true → s.status.fault = true →
    exec (.frame r) s = .next { s with outcome := Cause.outcome s.cause })

/-- The persistent files and memories are written by their own operations only: where an instruction completes without a fault and
without a reset (no free value taken), `STORE`, `VVEC`, `RSV`, `MD`, `PCM` and `HDR.*` change only under the instructions named; what
the host has sent and whether single operations are admitted no instruction changes (the model's own fields, log 14). -/
def Obligations.WritersOfPersistentState : Prop :=
  ∀ (i : Instr) (s t : State), exec i s = .next t →
    (t.port = s.port ∧ t.bench = s.bench) ∧
    (t.free = s.free →
      (writesStore i = false → t.store = s.store) ∧
      (writesVvec i = false → t.vvec = s.vvec) ∧
      (writesRsv i = false → t.rsv = s.rsv) ∧
      (writesMd i = false → t.md = s.md) ∧
      (writesPcm i = false → t.pcm = s.pcm) ∧
      (writesHdr i = false → t.hdr = s.hdr))

/-! ### The bit cursor -/

/-- `BC.READ n` and `GetBits(n)` where the bits are there: the value, `BITPOS` advanced, all else unchanged. (`n` above 16: the
model's choice, log 19.) -/
def Obligations.GetBitsReads : Prop :=
  ∀ (n : Fin 33) (s : State), Fits s n.val →
    exec (.bcRead n) s =
      .next { s with bitpos := s.bitpos + n.val, ret := .nat (seqField s.md s.bitpos n.val) } ∧
    exec (.getBits n) s =
      .next { s with bitpos := s.bitpos + n.val, ret := .nat (seqField s.md s.bitpos n.val) } ∧
    seqField s.md s.bitpos n.val < 2 ^ n.val

/-- An over-read: under the default policy `BC.READ` and `GetBits` take `FormatError(BITS_OVERRUN)`; under `zero` every bit at or
beyond the end reads as 0 and the read completes. (The model's choice: `n` above 16, log 19; that the registers R293(b) leaves unspecified
are the same for every `n` and both rows, log 41; the raise while `PCM_VALID` is 1, log 27, or `FAULT` is 1, log 40, with the `SEQ` found in
`WHERE`, log 4.) -/
def Obligations.OverRead : Prop :=
  (∀ (n : Fin 33) (s : State), ¬Fits s n.val →
    exec (.bcRead n) s = .next (takeException .bitsOverrun [] s) ∧
    exec (.getBits n) s = .next (takeException .bitsOverrun [] s) ∧
    Faulted .bitsOverrun s.seq (takeException .bitsOverrun [] s)) ∧
  (∀ (n : Nat) (s : State), ¬Fits s n →
    getBitsWith .zero n s = .ok (seqField s.md s.bitpos n) { s with bitpos := s.bitpos + n } ∧
    ∀ p, 8 * s.md.length ≤ p → seqBit s.md p = false)

/-- `BC.POS` returns `BITPOS`; `BC.SETPOS` sets it, whatever the position. -/
def Obligations.CursorPosition : Prop :=
  ∀ (p : Nat) (s : State),
    exec .bcPos s = .next { s with ret := .nat s.bitpos } ∧
    exec (.bcSetpos p) s = .next { s with bitpos := p }

/-! ### The reservoir -/

/-- `RSV.CHECK` and `RSV.RECV`: the main-data size in 0 to 1500, the main data at least that long; otherwise the two faults. (The model's
choice: the raise while `PCM_VALID` is 1, log 27, or `FAULT` is 1, log 40; `RSV.RECV` of more than `MAIN_SIZE` bytes, log 38.) -/
def Obligations.ReservoirChecks : Prop :=
  ∀ (main : List Byte) (s : State),
    (0 ≤ s.hdr.mainSize ∧ s.hdr.mainSize ≤ 1500 → exec .rsvCheck s = .next { s with seq := ⟨.rsvCheck, 0, 0⟩ }) ∧
    (s.hdr.mainSize < 0 ∨ 1500 < s.hdr.mainSize →
      ∃ t, exec .rsvCheck s = .next t ∧ Faulted .mainSize ⟨.rsvCheck, 0, 0⟩ t) ∧
    (s.hdr.mainSize ≤ main.length → exec (.rsvRecv main) s = .next { s with seq := ⟨.rsvRecv, 0, 0⟩ }) ∧
    ((main.length : Int) < s.hdr.mainSize →
      ∃ t, exec (.rsvRecv main) s = .next t ∧ Faulted .mainTruncated ⟨.rsvRecv, 0, 0⟩ t)

/-- `RSV.APPEND`: its effect is to keep the bytes and to report the skip; nothing else changes. (`PCM_VALID` cleared outside a
`FRAME` is the model's choice, log 27; so are a `MAIN` of any length, log 38, the raise where the history is there, log 39, and the raise while `FAULT` is 1,
which stays 1, log 40.) -/
def Obligations.ReservoirAppend : Prop :=
  ∀ (main : List Byte) (s : State),
    exec (.rsvAppend main) s =
      .next { s with
        rsv := s.rsv ++ main
        cause := .rsvInsufficient
        whr := ⟨.rsvAppend, 0, 0⟩
        status := ⟨s.status.fault, true, false⟩
        seq := ⟨.idle, 0, 0⟩
        outcome := .skipped .rsvInsufficient }

/-- `RSV.SPLICE` where the history is there (`SI.MAIN_DATA_BEGIN <= len(RSV)`): byte `k` of the new `MD` and `RSV` is byte
`len(RSV) - SI.MAIN_DATA_BEGIN + k` of `RSV ++ MAIN`. (A `MAIN` of any length: the model's choice, log 38.) -/
def Obligations.ReservoirSplice : Prop :=
  ∀ (main : List Byte) (s : State), s.si.mainDataBegin.toNat ≤ s.rsv.length →
    ∃ md : List Byte,
      exec (.rsvSplice main) s =
        .next { s with md := md, rsv := md, bitpos := 0, seq := ⟨.rsvSplice, 0, 0⟩ } ∧
      md.length = s.si.mainDataBegin.toNat + main.length ∧
      ∀ k, k < md.length → md[k]? = (s.rsv ++ main)[s.rsv.length - s.si.mainDataBegin.toNat + k]?

/-! ### Side information -/

/-- `LOADSI` checks the frame size, then the image's length, before any field is written; otherwise it writes `SI.*` alone and keeps
every `COUNT1`. (The model's choice: an image longer than `SI_SIZE`, log 44; the raise while `PCM_VALID` is 1, log 27, or `FAULT` is 1,
log 40.) -/
def Obligations.LoadsiChecks : Prop :=
  ∀ (image : List Byte) (s : State),
    (2000 < s.hdr.frameSize.toNat → ∃ t, exec (.loadsi image) s = .next t ∧ Faulted .frameSize ⟨.loadsi, 0, 0⟩ t) ∧
    (s.hdr.frameSize.toNat ≤ 2000 → image.length < s.hdr.siSize →
      ∃ t, exec (.loadsi image) s = .next t ∧ Faulted .siTruncated ⟨.loadsi, 0, 0⟩ t) ∧
    (s.hdr.frameSize.toNat ≤ 2000 → s.hdr.siSize ≤ image.length →
      ∃ t, exec (.loadsi image) s = .next t ∧ t = { s with seq := ⟨.loadsi, 0, 0⟩, si := t.si } ∧
        ∀ gr ch : Fin 2, (t.gran gr ch).count1 = (s.gran gr ch).count1)

/-- The registers a group gives (30_encoding R96, R97, R98), but for `COUNT1`. -/
def Sys2Proof.Claims.groupRegs (c1 : BitVec 10) : SiGroup → Gran
  | .m1On h c w f t =>
    let r0 : BitVec 4 := if w.blockType = .short ∧ w.mixed = false then 8 else 7
    ⟨h.part23Length, h.bigValues, h.globalGain, c.setWidth 9, true, w.blockType, w.mixed, w.table0, w.table1, 0, w.gain0, w.gain1,
      w.gain2, r0, 20 - r0, f, t.scalefacScale, t.count1Table, c1⟩
  | .m1Off h c w f t =>
    ⟨h.part23Length, h.bigValues, h.globalGain, c.setWidth 9, false, .normal, false, w.table0, w.table1, w.table2, 0, 0, 0,
      w.region0, w.region1.setWidth 4, f, t.scalefacScale, t.count1Table, c1⟩
  | .lsfOn h c w t =>
    let r0 : BitVec 4 := if w.blockType = .short ∧ w.mixed = false then 8 else 7
    ⟨h.part23Length, h.bigValues, h.globalGain, c, true, w.blockType, w.mixed, w.table0, w.table1, 0, w.gain0, w.gain1, w.gain2, r0,
      20 - r0, false, t.scalefacScale, t.count1Table, c1⟩
  | .lsfOff h c w t =>
    ⟨h.part23Length, h.bigValues, h.globalGain, c, false, .normal, false, w.table0, w.table1, w.table2, 0, 0, 0, w.region0,
      w.region1.setWidth 4, false, t.scalefacScale, t.count1Table, c1⟩

/-- A group of the MPEG-1 layout. -/
def Sys2Proof.Claims.isM1 : SiGroup → Bool
  | .m1On _ _ _ _ _ | .m1Off _ _ _ _ _ => true
  | .lsfOn _ _ _ _ | .lsfOff _ _ _ _ => false

/-- `LOADSI`, MPEG-1: an image made of fields in the order of R96 loads exactly those fields and the implicit ones of R98. -/
def Obligations.LoadsiMpeg1 : Prop :=
  ∀ (s : State) (mdb : BitVec 9) (f0 f1 : BitVec 4) (a b c d : SiGroup), s.hdr.frameSize.toNat ≤ 2000 → s.hdr.lsf = false →
    isM1 a = true → isM1 b = true → isM1 c = true → isM1 d = true →
    (∀ priv : BitVec 5, s.hdr.mode = .single →
      ∃ t, exec (.loadsi (packBits (wordBits mdb ++ wordBits priv ++ wordBits f0 ++ siGroupBits a ++ siGroupBits b))) s = .next t ∧
        t = { s with seq := ⟨.loadsi, 0, 0⟩, si := t.si } ∧ t.si.mainDataBegin = mdb ∧ t.si.priv = priv ∧
        t.si.scfsi.get 0 = f0 ∧ t.gran 0 0 = groupRegs (s.gran 0 0).count1 a ∧ t.gran 1 0 = groupRegs (s.gran 1 0).count1 b) ∧
    (∀ priv : BitVec 3, s.hdr.mode ≠ .single →
      ∃ t, exec (.loadsi (packBits (wordBits mdb ++ wordBits priv ++ wordBits f0 ++ wordBits f1 ++
          siGroupBits a ++ siGroupBits b ++ siGroupBits c ++ siGroupBits d))) s = .next t ∧
        t = { s with seq := ⟨.loadsi, 0, 0⟩, si := t.si } ∧ t.si.mainDataBegin = mdb ∧ t.si.priv = priv.setWidth 5 ∧
        t.si.scfsi.get 0 = f0 ∧ t.si.scfsi.get 1 = f1 ∧
        t.gran 0 0 = groupRegs (s.gran 0 0).count1 a ∧ t.gran 0 1 = groupRegs (s.gran 0 1).count1 b ∧
        t.gran 1 0 = groupRegs (s.gran 1 0).count1 c ∧ t.gran 1 1 = groupRegs (s.gran 1 1).count1 d)

/-- `LOADSI`, LSF: the layout of R97. -/
def Obligations.LoadsiLsf : Prop :=
  ∀ (s : State) (mdb : BitVec 8) (a b : SiGroup), s.hdr.frameSize.toNat ≤ 2000 → s.hdr.lsf = true →
    isM1 a = false → isM1 b = false →
    (∀ priv : BitVec 1, s.hdr.mode = .single →
      ∃ t, exec (.loadsi (packBits (wordBits mdb ++ wordBits priv ++ siGroupBits a))) s = .next t ∧
        t = { s with seq := ⟨.loadsi, 0, 0⟩, si := t.si } ∧ t.si.mainDataBegin = mdb.setWidth 9 ∧ t.si.priv = priv.setWidth 5 ∧
        t.si.scfsi.get 0 = 0 ∧ t.si.scfsi.get 1 = 0 ∧ t.gran 0 0 = groupRegs (s.gran 0 0).count1 a) ∧
    (∀ priv : BitVec 2, s.hdr.mode ≠ .single →
      ∃ t, exec (.loadsi (packBits (wordBits mdb ++ wordBits priv ++ siGroupBits a ++ siGroupBits b))) s = .next t ∧
        t = { s with seq := ⟨.loadsi, 0, 0⟩, si := t.si } ∧ t.si.mainDataBegin = mdb.setWidth 9 ∧ t.si.priv = priv.setWidth 5 ∧
        t.si.scfsi.get 0 = 0 ∧ t.si.scfsi.get 1 = 0 ∧
        t.gran 0 0 = groupRegs (s.gran 0 0).count1 a ∧ t.gran 0 1 = groupRegs (s.gran 0 1).count1 b)

/-- The rows of the side-information image as writes: the four groups with the implicit fields of R98, the four prefixes. (The model's
choice: a row as a step, log 25; whatever layout `HDR` asks for, log 45; a granule or channel the frame lacks, log 37.) -/
def Obligations.SideInfoRows : Prop :=
  ∀ (s : State) (gr ch : Fin 2) (h : GroupHead) (g : GroupTail) (won : SwitchOn) (woff : SwitchOff),
    (∀ (c : BitVec 4) (f : Bool),
      (∃ t, exec (.siGroupM1Ws1 gr ch h c won f g) s = .next t ∧ t = { s with si := { s.si with gran := t.si.gran } } ∧
        t.gran gr ch = groupRegs (s.gran gr ch).count1 (.m1On h c won f g) ∧ OtherGrans gr ch s t) ∧
      (∃ t, exec (.siGroupM1Ws0 gr ch h c woff f g) s = .next t ∧ t = { s with si := { s.si with gran := t.si.gran } } ∧
        t.gran gr ch = groupRegs (s.gran gr ch).count1 (.m1Off h c woff f g) ∧ OtherGrans gr ch s t)) ∧
    (∀ c : BitVec 9,
      (∃ t, exec (.siGroupLsfWs1 ch h c won g) s = .next t ∧ t = { s with si := { s.si with gran := t.si.gran } } ∧
        t.gran 0 ch = groupRegs (s.gran 0 ch).count1 (.lsfOn h c won g) ∧ OtherGrans 0 ch s t) ∧
      (∃ t, exec (.siGroupLsfWs0 ch h c woff g) s = .next t ∧ t = { s with si := { s.si with gran := t.si.gran } } ∧
        t.gran 0 ch = groupRegs (s.gran 0 ch).count1 (.lsfOff h c woff g) ∧ OtherGrans 0 ch s t)) ∧
    (∀ (d : BitVec 9) (p : BitVec 5) (q : BitVec 3) (f0 f1 : BitVec 4),
      exec (.siHeadM1Mono d p f0) s =
        .next { s with si := ⟨d, p, ⟨f0, s.si.scfsi.get 1⟩, s.si.gran⟩ } ∧
      exec (.siHeadM1Stereo d q f0 f1) s = .next { s with si := ⟨d, q.setWidth 5, ⟨f0, f1⟩, s.si.gran⟩ }) ∧
    (∀ (d : BitVec 8) (p : BitVec 1) (q : BitVec 2),
      exec (.siHeadLsfMono d p) s = .next { s with si := ⟨d.setWidth 9, p.setWidth 5, ⟨0, 0⟩, s.si.gran⟩ } ∧
      exec (.siHeadLsfStereo d q) s = .next { s with si := ⟨d.setWidth 9, q.setWidth 5, ⟨0, 0⟩, s.si.gran⟩ })

/-- `HEADER`: a header that passes the host's check gives `HDR.*` (R94); another changes nothing (the model's choice, log 23, as are the
codes of the reserved version and layer). -/
def Obligations.HeaderRow : Prop :=
  ∀ (h : HeaderWord) (s : State),
    (h.version ≠ 1#2 → h.layer ≠ 0#2 → h.bitrate ≠ 15#4 → h.sfreq ≠ 3#2 → h.emphasis ≠ 2#2 →
      ∃ t, exec (.header h) s = .next t ∧ t = { s with hdr := t.hdr } ∧
        t.hdr.prot = h.protection ∧ t.hdr.sfreq.val = h.sfreq.toNat ∧ t.hdr.mode = h.mode ∧ t.hdr.modeExt = h.modeExt ∧
        (t.hdr.lsf = true ↔ h.version ≠ 3#2)) ∧
    ((h.version = 1#2 ∨ h.layer = 0#2 ∨ h.bitrate = 15#4 ∨ h.sfreq = 3#2 ∨ h.emphasis = 2#2) → exec (.header h) s = .next s)

/-! ### Scale factors -/

/-- `SCF.CLEAR`: every element of both files is 0, nothing else changes. -/
def Obligations.ScaleFactorClear : Prop :=
  ∀ s : State, ∃ t, exec .scfClear s = .next t ∧
    t = { s with seq := ⟨.scfClear, 0, 0⟩, scfL := t.scfL, scfS := t.scfS } ∧
    ∀ (gr ch : Fin 2) (b win : Nat), t.scfLong gr ch b = 0 ∧ t.scfShort gr ch b win = 0

/-- `SCF.M1`, long-block form, where its fields are there: each of bands 0 to 20 read, or copied from granule 0; band 21 and every
other element unchanged; `BITPOS` past the fields. The model's choice: `part2_start` (R150) returned (log 34), free widths for a
`SCALEFAC_COMPRESS` above 15 (log 17), a channel the frame lacks (log 37). -/
def Obligations.ScaleFactorsLong : Prop :=
  ∀ (gr ch : Fin 2) (s : State), (s.gran gr ch).isShort = false → Fits s (longWidths s gr ch).sum →
    ∃ t, exec (.scfM1 gr ch) s = .next t ∧
      t = { s with
        seq := ⟨.scfM1, gr, ch⟩, bitpos := s.bitpos + (longWidths s gr ch).sum, scfL := t.scfL, ret := .nat s.bitpos } ∧
      (∀ b, b < 21 → t.scfLong gr ch b =
        if copied s gr ch b then s.scfLong 0 ch b else fieldAt s (longWidths s gr ch) b) ∧
      (∀ (gr' ch' : Fin 2) (b : Nat), 21 ≤ b ∨ ¬(gr' = gr ∧ ch' = ch) → t.scfLong gr' ch' b = s.scfLong gr' ch' b)

/-- `SCF.M1`, short-block form: 36 fields, band by band, the three windows of a band together; `SCFSI` plays no part. The model's
choice: `part2_start` returned (log 34), free widths above index 15 (log 17), a channel the frame lacks (log 37). -/
def Obligations.ScaleFactorsShort : Prop :=
  ∀ (gr ch : Fin 2) (s : State), (s.gran gr ch).isShort = true → (s.gran gr ch).mixed = false →
    let ws := shortWidths (slen (s.gran gr ch).scalefacCompress.toNat) 0
    Fits s ws.sum →
    ∃ t, exec (.scfM1 gr ch) s = .next t ∧
      t = { s with seq := ⟨.scfM1, gr, ch⟩, bitpos := s.bitpos + ws.sum, scfS := t.scfS, ret := .nat s.bitpos } ∧
      (∀ b win, b < 12 → win < 3 → t.scfShort gr ch b win = fieldAt s ws (3 * b + win)) ∧
      (∀ (gr' ch' : Fin 2) (k : Nat), 36 ≤ k ∨ ¬(gr' = gr ∧ ch' = ch) →
        ((t.scfS.get gr').get ch').get k 0 = ((s.scfS.get gr').get ch').get k 0)

/-- `SCF.M1`, mixed-block form: long bands 0 to 7, then short bands 3 to 11. The model's choice: `part2_start` returned (log 34), free
widths above index 15 (log 17), a channel the frame lacks (log 37). -/
def Obligations.ScaleFactorsMixed : Prop :=
  ∀ (gr ch : Fin 2) (s : State), (s.gran gr ch).isShort = true → (s.gran gr ch).mixed = true →
    let w := slen (s.gran gr ch).scalefacCompress.toNat
    let ws := List.replicate 8 w.1 ++ shortWidths w 3
    Fits s ws.sum →
    ∃ t, exec (.scfM1 gr ch) s = .next t ∧
      t = { s with
        seq := ⟨.scfM1, gr, ch⟩, bitpos := s.bitpos + ws.sum, scfL := t.scfL, scfS := t.scfS, ret := .nat s.bitpos } ∧
      (∀ b, b < 8 → t.scfLong gr ch b = fieldAt s ws b) ∧
      (∀ b win, 3 ≤ b → b < 12 → win < 3 → t.scfShort gr ch b win = fieldAt s ws (8 + (3 * (b - 3) + win))) ∧
      (∀ (gr' ch' : Fin 2) (b : Nat), 8 ≤ b ∨ ¬(gr' = gr ∧ ch' = ch) → t.scfLong gr' ch' b = s.scfLong gr' ch' b) ∧
      (∀ (gr' ch' : Fin 2) (k : Nat), k < 9 ∨ 36 ≤ k ∨ ¬(gr' = gr ∧ ch' = ch) →
        ((t.scfS.get gr').get ch').get k 0 = ((s.scfS.get gr').get ch').get k 0)

/-- `SCF.M2`: long blocks fill `SCF_L[0][ch]` from 21 fields and a trailing zero, short blocks `SCF_S[0][ch]` from 36 fields and three
zeros; `PREFLAG` takes the table's; a mixed block takes `FormatError(SCF_COUNT)`. The model's choice: `part2_start` returned (log 34), a
channel the frame lacks (log 37), the raise while `PCM_VALID` is 1 (log 27) or `FAULT` is 1 (log 40). -/
def Obligations.ScaleFactorsLsf : Prop :=
  ∀ (ch : Fin 2) (s : State),
    let g := s.gran 0 ch
    let e := nslen2 g.scalefacCompress.toNat
    let pos : SeqPos := ⟨.scfM2, 0, ch⟩
    let after (n : Nat) : State :=
      { s.setGran 0 ch { g with preflag := e.preflag } with
        seq := pos, bitpos := s.bitpos + (lsfWidths n e).sum, ret := .nat s.bitpos }
    (g.blockType ≠ .short → Fits s (lsfWidths 0 e).sum →
      ∃ t, exec (.scfM2 ch) s = .next t ∧ t = { after 0 with scfL := t.scfL } ∧
        (∀ b, b < 21 → t.scfLong 0 ch b = fieldAt s (lsfWidths 0 e) b) ∧ t.scfLong 0 ch 21 = 0 ∧
        ∀ (gr' ch' : Fin 2) (b : Nat), ¬(gr' = 0 ∧ ch' = ch) → t.scfLong gr' ch' b = s.scfLong gr' ch' b) ∧
    (g.blockType = .short → g.mixed = false → Fits s (lsfWidths 1 e).sum →
      ∃ t, exec (.scfM2 ch) s = .next t ∧ t = { after 1 with scfS := t.scfS } ∧
        (∀ b win, b < 12 → win < 3 → t.scfShort 0 ch b win = fieldAt s (lsfWidths 1 e) (3 * b + win)) ∧
        (∀ win, win < 3 → t.scfShort 0 ch 12 win = 0) ∧
        ∀ (gr' ch' : Fin 2) (k : Nat), ¬(gr' = 0 ∧ ch' = ch) →
          ((t.scfS.get gr').get ch').get k 0 = ((s.scfS.get gr').get ch').get k 0) ∧
    (g.blockType = .short → g.mixed = true → Fits s (lsfWidths 2 e).sum →
      ∃ t, exec (.scfM2 ch) s = .next t ∧ Faulted .scfCount pos t)

/-- The scale-factor field rows: one field of `slen1` or `slen2` bits; the fields of one LSF partition. (The model's choice: a row as a
step, log 36; the free widths of a `SCALEFAC_COMPRESS` above 15, log 17; whatever layout `HDR` asks for, log 45; a channel the frame lacks,
log 37.) -/
def Obligations.ScaleFactorFields : Prop :=
  (∀ (gr ch : Fin 2) (second : Bool) (s : State),
    let w := slen (s.gran gr ch).scalefacCompress.toNat
    let n := if second then w.2 else w.1
    Fits s n →
      exec (.scfFieldM1 gr ch second) s =
        .next { s with bitpos := s.bitpos + n, ret := .nat (seqField s.md s.bitpos n) }) ∧
  (∀ (ch : Fin 2) (part : Fin 4) (s : State),
    let g := s.gran 0 ch
    let e := nslen2 g.scalefacCompress.toNat
    let n := if g.blockType = .short then (if g.mixed then 2 else 1) else 0
    let w := e.slen.getD part.val 0
    let count := scfPart n e.d part.val
    Fits s (count * w) →
      exec (.scfFieldM2 ch part) s =
        .next { s with
          bitpos := s.bitpos + count * w
          ret := .ints ((List.range count).map fun k => (seqField s.md (s.bitpos + k * w) w : Int)) })

/-! ### The Huffman decoder -/

/-- Table 0 reads no bit and gives `(0, 0)`; tables 4 and 14 take `FormatError(HUFF_TABLE_RESERVED)` before any bit is read; the
codebook rows the same. (The model's choice: the rows as steps, log 22; that the four faults leave the same in the registers R293(b)
leaves unspecified, log 41; the raise while `PCM_VALID` is 1, log 27, or `FAULT` is 1, log 40, with the `SEQ` found in `WHERE`, log 4.) -/
def Obligations.PairTablesWithoutCodebook : Prop :=
  ∀ s : State,
    exec (.hufPair 0#5) s = .next { s with ret := .ints [0, 0] } ∧
    exec .huffPair0 s = .next { s with ret := .ints [0, 0] } ∧
    (∀ i, i = .hufPair 4#5 ∨ i = .hufPair 14#5 ∨ i = .huffPair4 ∨ i = .huffPair14 →
      exec i s = .next (takeException .huffTableReserved [] s) ∧
      Faulted .huffTableReserved s.seq (takeException .huffTableReserved [] s))

/-- A pair: where the bits of a pair that table `t` codes stand at the cursor, `HUF.PAIR t` and the codebook row of `t` (each of rows 1 to 31
but 4 and 14) give its values and move past it, for every codebook of the shape of R167. (The rows as steps: the model's choice,
log 22.) -/
def Obligations.PairDecodes : Prop :=
  ∀ (t : BitVec 5) (c : PairCode) (s : State), c.ok t.toNat = true → Holds s (c.bits t.toNat) →
    exec (.hufPair t) s =
      .next { s with bitpos := s.bitpos + (c.bits t.toNat).length, ret := .ints [c.x t.toNat, c.y t.toNat] } ∧
    exec (huffPairInstr t) s =
      .next { s with bitpos := s.bitpos + (c.bits t.toNat).length, ret := .ints [c.x t.toNat, c.y t.toNat] }

/-- The pair items as rows (log 21): an item moves the cursor past its bits and gives its values; the four codewords of pair table 1 with
their sign bits are 1, 4, 3 and 5 bits long. (The model's choice: an item as a step, log 21; what it gives for a term that is no
instruction, because table `t` does not code the pair, log 46.) -/
def Obligations.PairItems : Prop :=
  ∀ s : State,
    (∀ (t : BitVec 5) (x0 y0 : BitVec 4) (lx ly : BitVec 13) (nx ny : Bool),
      let c : PairCode := ⟨x0.toNat, y0.toNat, lx.toNat, ly.toNat, nx, ny⟩
      exec (.pairItem t x0 y0 lx ly nx ny) s =
        .next { s with bitpos := s.bitpos + (c.bits t.toNat).length, ret := .ints [c.x t.toNat, c.y t.toNat] }) ∧
    exec .pairOne00 s = .next { s with bitpos := s.bitpos + 1, ret := .ints [0, 0] } ∧
    (∀ n : Bool,
      exec (.pairOne01 n) s = .next { s with bitpos := s.bitpos + 4, ret := .ints [0, if n then -1 else 1] } ∧
      exec (.pairOne10 n) s = .next { s with bitpos := s.bitpos + 3, ret := .ints [if n then -1 else 1, 0] }) ∧
    (∀ n m : Bool, exec (.pairOne11 n m) s =
      .next { s with bitpos := s.bitpos + 5, ret := .ints [if n then -1 else 1, if m then -1 else 1] })

/-- A quadruple: where its codeword of `HUFF_QUAD[q]` and its sign bits stand at the cursor, `HUF.QUAD q` gives its values and moves past
it. -/
def Obligations.QuadDecodes : Prop :=
  ∀ (q : Bool) (c : QuadCode) (s : State), wfSigns c.value c.neg = true → Holds s (c.bits q) →
    exec (.hufQuad q) s =
      .next { s with bitpos := s.bitpos + (c.bits q).length, ret := .ints (quadElems c.value c.neg) }

/-- The quadruple items as rows (log 21), the 32 codewords of tables A and B among them: the cursor moves past the codeword and one bit for
each non-zero element; each element is 0, or 1, or -1 where its sign bit is 1. (The model's choice: an item as a step, log 21; what it
gives for a term that is no instruction, with a sign bit for a zero element, log 46.) -/
def Obligations.QuadItems : Prop :=
  ∀ (q : Bool) (v n : BitVec 4) (s : State),
    (exec (.quadItem q v n) s =
      .next { s with
        bitpos := s.bitpos + ((quadBook q).codeword v).length + quadSigns v
        ret := .ints ([3, 2, 1, 0].map fun i => if v.getLsbD i then (if n.getLsbD i then -1 else 1) else 0) }) ∧
    (wfSigns v n = true → exec (quadInstr q v n) s = exec (.quadItem q v n) s ∧
      ∃ t, exec (quadInstr q v n) s = .next t)

/-- `HUF.BIG`: its two range checks; otherwise, where the pairs of the big-values region stand at the cursor, each coded with its region's
table, lines `0 .. 2 * BIG_VALUES - 1` take their values. (The model's choice: a step with operands `gr`, `ch`, log 34; a
granule or channel the frame lacks, log 37; the raise while `PCM_VALID` is 1, log 27, or `FAULT` is 1, log 40, with the `SEQ` found in
`WHERE`, log 4.) -/
def Obligations.BigValues : Prop :=
  ∀ (gr ch : Fin 2) (s : State),
    let g := s.gran gr ch
    (288 < g.bigValues.toNat → ∃ t, exec (.hufBig gr ch) s = .next t ∧ Faulted .lineRange s.seq t) ∧
    (g.bigValues.toNat ≤ 288 → ¬regionsOk g → ∃ t, exec (.hufBig gr ch) s = .next t ∧ Faulted .regionRange s.seq t) ∧
    (∀ cs : List PairCode, cs.length = g.bigValues.toNat → cs.length ≤ 288 → regionsOk g → pairsOk (tableAt s g) 0 cs →
      Holds s (pairsBits (tableAt s g) 0 cs) →
      ∃ t, exec (.hufBig gr ch) s = .next t ∧
        t = { s with bitpos := s.bitpos + (pairsBits (tableAt s g) 0 cs).length, xr := t.xr } ∧
        (∀ i, i < 2 * cs.length → t.line gr ch i = fOfInt ((pairsValues (tableAt s g) 0 cs).getD i 0)) ∧
        (∀ i, 2 * cs.length ≤ i → t.line gr ch i = s.line gr ch i) ∧ OtherLines gr ch s t)

/-- `HUF.CNT1`: where the quadruples the loop reads stand at the cursor, their values, the discard of the last where it ran past part 3,
`COUNT1`, the zero tail and the reposition. (The model's choice: a step with operand `part2_start`, log 34;
`BIG_VALUES` above 288, log 42; a granule or channel the frame lacks, log 37.) -/
def Obligations.Count1Region : Prop :=
  ∀ (gr ch : Fin 2) (start : Nat) (s : State) (cs : List QuadCode),
    let g := s.gran gr ch
    let endPos := start + g.part23Length.toNat
    let p0 := 2 * g.bigValues.toNat
    let bits := quadsBits g.count1Table cs
    loopReads g.count1Table endPos p0 s.bitpos cs → quadsOk cs → Holds s bits →
    let p := p0 + 4 * cs.length
    let count := if endPos < s.bitpos + bits.length then p - 4 else p
    ∃ t, exec (.hufCnt1 gr ch start) s = .next t ∧
      t = { s with bitpos := endPos, xr := t.xr, si := t.si } ∧
      t.si = { s.si with gran := t.si.gran } ∧
      t.gran gr ch = { g with count1 := BitVec.ofNat 10 count } ∧
      (∀ i, i < count → i < 576 → t.line gr ch i =
        if i < p0 then s.line gr ch i else fOfInt ((quadsValues cs).getD (i - p0) 0)) ∧
      (∀ i, count ≤ i → t.line gr ch i = 0#32) ∧ OtherLines gr ch s t ∧ OtherGrans gr ch s t

/-- `HUF.GRANULE`: with `PART2_3_LENGTH = 0` all lines and `COUNT1` are 0 and no bit is read; otherwise the pairs and then the quadruples at
the cursor give the lines. (A granule or channel the frame lacks: the model's choice, log 37.) -/
def Obligations.GranuleDecodes : Prop :=
  ∀ (gr ch : Fin 2) (start : Nat) (s : State),
    let g := s.gran gr ch
    let endPos := start + g.part23Length.toNat
    (g.part23Length = 0 →
      ∃ t, exec (.hufGranule gr ch start) s = .next t ∧
        t = { s with seq := ⟨.hufGranule, gr, ch⟩, xr := t.xr, si := t.si } ∧ t.si = { s.si with gran := t.si.gran } ∧
        t.gran gr ch = { g with count1 := 0 } ∧
        (∀ i, t.line gr ch i = 0#32) ∧ OtherLines gr ch s t ∧ OtherGrans gr ch s t) ∧
    (g.part23Length ≠ 0 → ∀ (cs : List PairCode) (qs : List QuadCode),
      cs.length = g.bigValues.toNat → cs.length ≤ 288 → regionsOk g → pairsOk (tableAt s g) 0 cs → quadsOk qs →
      let big := pairsBits (tableAt s g) 0 cs
      let small := quadsBits g.count1Table qs
      loopReads g.count1Table endPos (2 * cs.length) (s.bitpos + big.length) qs →
      Holds s (big ++ small) →
      let values := pairsValues (tableAt s g) 0 cs ++ quadsValues qs
      let p := 2 * cs.length + 4 * qs.length
      let count := if endPos < s.bitpos + (big ++ small).length then p - 4 else p
      ∃ t, exec (.hufGranule gr ch start) s = .next t ∧
        t = { s with seq := ⟨.hufGranule, gr, ch⟩, bitpos := endPos, xr := t.xr, si := t.si } ∧
        t.si = { s.si with gran := t.si.gran } ∧
        t.gran gr ch = { g with count1 := BitVec.ofNat 10 count } ∧
        (∀ i, i < 576 → t.line gr ch i = if i < count then fOfInt (values.getD i 0) else 0#32) ∧
        OtherLines gr ch s t ∧ OtherGrans gr ch s t)

/-- After a `HUF.GRANULE` that does not raise: `COUNT1` is even and at most 576; the lines from it on are 0; every line is the image of an
integer of magnitude at most 8206. (A granule or channel the frame lacks: the model's choice, log 37.) -/
def Obligations.GranulePostcondition : Prop :=
  ∀ (gr ch : Fin 2) (start : Nat) (s t : State), exec (.hufGranule gr ch start) s = .next t → t.seq = ⟨.hufGranule, gr, ch⟩ →
    (t.gran gr ch).count1.toNat % 2 = 0 ∧ (t.gran gr ch).count1.toNat ≤ 576 ∧
    (∀ i, (t.gran gr ch).count1.toNat ≤ i → t.line gr ch i = 0#32) ∧
    (∀ i, ∃ q : Int, q.natAbs ≤ 8206 ∧ t.line gr ch i = fOfInt q)

/-! ### Requantize and reorder -/

/-- The result of 43_requantize_reorder R191 and R192: 0 for `q = 0`, else the table entry times the gain with the sign of `q`. -/
def Sys2Proof.Claims.requantized (q e4 : Int) : F32 :=
  if q = 0 then 0#32 else if 0 < q then fMul (pow43 q.natAbs) (gain e4) else fNeg (fMul (pow43 q.natAbs) (gain e4))

/-- The exponent of the long form (R191). -/
def Sys2Proof.Claims.longE4 (s : State) (gr ch : Fin 2) (b : Nat) : Int :=
  let g := s.gran gr ch
  ((g.globalGain.toNat : Int) - 210) -
    (if g.scalefacScale then 4 else 2) * ((s.scfLong gr ch b).toNat + (if g.preflag then pretab b else 0))

/-- The exponent of the short form (R192). -/
def Sys2Proof.Claims.shortE4 (s : State) (gr ch : Fin 2) (b win : Nat) : Int :=
  let g := s.gran gr ch
  ((g.globalGain.toNat : Int) - 210 - 8 * (g.gain win).toNat) -
    (if g.scalefacScale then 4 else 2) * (s.scfShort gr ch b win).toNat

/-- `REQ.L` and `REQ.S` of an integer the rules allow: the value, nothing else changed (The model's choice: steps of
their own, log 20; a granule or channel the frame lacks, log 37.) -/
def Obligations.RequantizeElements : Prop :=
  ∀ (gr ch : Fin 2) (q : BitVec 16) (s : State), q.toInt.natAbs ≤ 8206 →
    (∀ b : Fin 22, exec (.reqL gr ch q b) s = .next { s with ret := .vals [requantized q.toInt (longE4 s gr ch b.val)] }) ∧
    (∀ (b : Fin 13) (win : Fin 3),
      exec (.reqS gr ch q b win) s = .next { s with ret := .vals [requantized q.toInt (shortE4 s gr ch b.val win.val)] })

/-- `REQ` on a granule that is not short: line `i` below `COUNT1`, in long band `b`, holding the integer `q`, takes `REQ.L(q, b)`; the
lines from `COUNT1` on and everything but `XR[gr][ch]` are unchanged. (The model's choice: a `COUNT1` above 576, log 43; a granule or
channel the frame lacks, log 37.) -/
def Obligations.RequantizeLong : Prop :=
  ∀ (gr ch : Fin 2) (s : State), (s.gran gr ch).isShort = false →
    ∃ t, exec (.req gr ch) s = .next t ∧ t = { s with seq := ⟨.req, gr, ch⟩, xr := t.xr } ∧ OtherLines gr ch s t ∧
      (∀ i, (s.gran gr ch).count1.toNat ≤ i → t.line gr ch i = s.line gr ch i) ∧
      (∀ (i b : Nat) (q : Int), i < (s.gran gr ch).count1.toNat → i < 576 → b < 22 →
        s.longRow.getD b 0 ≤ i → i < s.longRow.getD (b + 1) 0 → q.natAbs ≤ 8206 → s.line gr ch i = fOfInt q →
        t.line gr ch i = requantized q (longE4 s gr ch b))

/-- `REQ` on a short granule: line `3*s[b] + win*win_len + j` of a band whose start is below `COUNT1` takes `REQ.S(q, b, win)`; in a mixed
granule lines 0 to 35 take the long form instead; bands that start at or above `COUNT1` are unchanged. (The model's choice: a `COUNT1`
above 576, log 43; a granule or channel the frame lacks, log 37.) -/
def Obligations.RequantizeShort : Prop :=
  ∀ (gr ch : Fin 2) (s : State), (s.gran gr ch).isShort = true →
    ∃ t, exec (.req gr ch) s = .next t ∧ t = { s with seq := ⟨.req, gr, ch⟩, xr := t.xr } ∧ OtherLines gr ch s t ∧
      (∀ (b win j : Nat) (q : Int), b < 13 → win < 3 →
        ((s.gran gr ch).mixed = true → 3 ≤ b) →
        j < s.shortRow.getD (b + 1) 0 - s.shortRow.getD b 0 →
        let i := 3 * s.shortRow.getD b 0 + win * (s.shortRow.getD (b + 1) 0 - s.shortRow.getD b 0) + j
        (3 * s.shortRow.getD b 0 < (s.gran gr ch).count1.toNat → q.natAbs ≤ 8206 → s.line gr ch i = fOfInt q →
          t.line gr ch i = requantized q (shortE4 s gr ch b win)) ∧
        ((s.gran gr ch).count1.toNat ≤ 3 * s.shortRow.getD b 0 → t.line gr ch i = s.line gr ch i)) ∧
      (∀ (i b : Nat) (q : Int), (s.gran gr ch).mixed = true → i < 36 → b < 22 →
        s.longRow.getD b 0 ≤ i → i < s.longRow.getD (b + 1) 0 → q.natAbs ≤ 8206 → s.line gr ch i = fOfInt q →
        t.line gr ch i = requantized q (longE4 s gr ch b))

/-- What `REQ.L` and `REQ.S` give for `q` and what they give for `-q`: both 0 for 0, else one the negative of the other. -/
def Sys2Proof.Claims.opposite (q : Int) (x y : F32) : Prop := (q = 0 → x = 0#32 ∧ y = 0#32) ∧ (q ≠ 0 → y = fNeg x)

/-- `REQ` keeps zero lines zero; `REQ.L`, `REQ.S` and `REQ` on the negative of an integer give the negative of what they give on it,
except that 0, its own negative, gives 0 both times; from exponent -326 to 41, four quarter steps more double the gain (as
steps of their own, `REQ.L` and `REQ.S` are the model's choice, log 20; so are `REQ` with a `COUNT1` above 576, log 43, and all three for a granule
or channel the frame lacks, log 37). -/
def Obligations.RequantizeLaws : Prop :=
  (∀ (gr ch : Fin 2) (s : State), ∃ t, exec (.req gr ch) s = .next t ∧
    ∀ i, s.line gr ch i = 0#32 → t.line gr ch i = 0#32) ∧
  (∀ (gr ch : Fin 2) (q : BitVec 16) (s : State), q.toInt.natAbs ≤ 8206 →
    (∀ b : Fin 22, ∃ x y, exec (.reqL gr ch q b) s = .next { s with ret := .vals [x] } ∧
      exec (.reqL gr ch (-q) b) s = .next { s with ret := .vals [y] } ∧ opposite q.toInt x y) ∧
    (∀ (b : Fin 13) (win : Fin 3), ∃ x y, exec (.reqS gr ch q b win) s = .next { s with ret := .vals [x] } ∧
      exec (.reqS gr ch (-q) b win) s = .next { s with ret := .vals [y] } ∧ opposite q.toInt x y)) ∧
  (∀ (gr ch : Fin 2) (s : State) (xr : Two (Two Lines)),
    ∃ t u, exec (.req gr ch) s = .next t ∧ exec (.req gr ch) { s with xr := xr } = .next u ∧
      ∀ (i : Nat) (q : Int), i < 576 → q.natAbs ≤ 8206 → s.line gr ch i = fOfInt q →
        ({ s with xr := xr } : State).line gr ch i = fOfInt (-q) → opposite q (t.line gr ch i) (u.line gr ch i)) ∧
  (∀ e4 : Int, -326 ≤ e4 → e4 ≤ 41 → fFinite (gain (e4 + 4)) = true ∧ fInt (gain (e4 + 4)) = 2 * fInt (gain e4))

/-- `REORD`: a granule that is not short is unchanged; in a short one, in every band from the first whose start is below `COUNT1`, line
`base + 3*j + win` takes the value of line `base + win*win_len + j`; all other lines are unchanged. (A granule or channel the frame lacks: the model's choice, log 37.) -/
def Obligations.Reorder : Prop :=
  ∀ (gr ch : Fin 2) (s : State),
    ((s.gran gr ch).isShort = false → exec (.reord gr ch) s = .next { s with seq := ⟨.reord, gr, ch⟩ }) ∧
    ((s.gran gr ch).isShort = true →
      ∃ t, exec (.reord gr ch) s = .next t ∧ t = { s with seq := ⟨.reord, gr, ch⟩, xr := t.xr } ∧ OtherLines gr ch s t ∧
        (∀ b win j : Nat, b < 13 → win < 3 → j < s.shortRow.getD (b + 1) 0 - s.shortRow.getD b 0 →
          let base := 3 * s.shortRow.getD b 0
          t.line gr ch (base + 3 * j + win) =
            if base < (s.gran gr ch).count1.toNat ∧ ((s.gran gr ch).mixed = true → 3 ≤ b) then
              s.line gr ch (base + win * (s.shortRow.getD (b + 1) 0 - s.shortRow.getD b 0) + j)
            else s.line gr ch (base + 3 * j + win)))

/-! ### Stereo -/

/-- `ST.MS` and `ST.IS`: sum and difference, each then multiplied once; channel 0's value times the two ratios, which for
position 6 are 1 and 0 (as steps of their own: the model's choice, log 20). -/
def Obligations.StereoElements : Prop :=
  ∀ s : State,
    (∀ a b : F32, exec (.stMs a b) s =
      .next { s with ret := .vals [fMul (fAdd a b) invSqrt2, fMul (fSub a b) invSqrt2] }) ∧
    (∀ (m : F32) (p : Fin 7), exec (.stIs m p) s =
      .next { s with ret := .vals [fMul m (isRatio p.val).1, fMul m (isRatio p.val).2] }) ∧
    isRatio 6 = (fOfInt 1, fOfInt 0)

/-- Without intensity: a mode that is not joint stereo, or no mode extension, changes nothing but the place in the sequence; mid/side
alone puts the lines below the larger `COUNT1` of both channels through `ST.MS` and changes no other. (The model's choice:
that bound where lines from it on are not 0, log 48; granule 1 of a frame with one granule, log 37.) -/
def Obligations.MidSide : Prop :=
  ∀ (gr : Fin 2) (s : State),
    (s.hdr.mode ≠ .joint ∨ s.hdr.modeExt = 0#2 → exec (.stereo gr) s = .next { s with seq := ⟨.stereo, gr, 0⟩ }) ∧
    (s.hdr.mode = .joint → s.hdr.modeExt = 2#2 →
      ∃ t, exec (.stereo gr) s = .next t ∧ t = { s with seq := ⟨.stereo, gr, 0⟩, xr := t.xr } ∧
        (∀ gr' ch : Fin 2, gr' ≠ gr → t.lines gr' ch = s.lines gr' ch) ∧
        ∀ i, i < 576 →
          (t.line gr 0 i, t.line gr 1 i) =
            if i < max (s.gran gr 0).count1.toNat (s.gran gr 1).count1.toNat then
              (fMul (fAdd (s.line gr 0 i) (s.line gr 1 i)) invSqrt2, fMul (fSub (s.line gr 0 i) (s.line gr 1 i)) invSqrt2)
            else (s.line gr 0 i, s.line gr 1 i))

/-- With intensity on, channels of different block structure take `FormatError(STEREO_BLOCK_MISMATCH)`; without it there is no
check. (The model's choice: granule 1 of a frame with one granule, log 37; the raise while `PCM_VALID` is 1, log 27, or `FAULT` is 1,
log 40.) -/
def Obligations.StereoMismatch : Prop :=
  ∀ (gr : Fin 2) (s : State), s.hdr.mode = .joint →
    let differ := (s.gran gr 0).isShort ≠ (s.gran gr 1).isShort ∨
      ((s.gran gr 0).isShort = true ∧ (s.gran gr 0).mixed ≠ (s.gran gr 1).mixed)
    (s.hdr.modeExt.getLsbD 0 = true → differ →
      ∃ t, exec (.stereo gr) s = .next t ∧ Faulted .stereoBlockMismatch ⟨.stereo, gr, 0⟩ t) ∧
    (s.hdr.modeExt.getLsbD 0 = false ∨ ¬differ →
      ∃ t, exec (.stereo gr) s = .next t ∧ t = { s with seq := ⟨.stereo, gr, 0⟩, xr := t.xr } ∧
        ∀ gr' ch : Fin 2, gr' ≠ gr → t.lines gr' ch = s.lines gr' ch)

/-- What becomes of a line of both channels that is not an intensity line (44_stereo R211(b), (c); the bound is log 48's choice). -/
def Sys2Proof.Claims.notIntensity (s : State) (gr : Fin 2) (i : Nat) : F32 × F32 :=
  if s.hdr.modeExt.getLsbD 1 = true ∧ i < max (s.gran gr 0).count1.toNat (s.gran gr 1).count1.toNat then
    (fMul (fAdd (s.line gr 0 i) (s.line gr 1 i)) invSqrt2, fMul (fSub (s.line gr 0 i) (s.line gr 1 i)) invSqrt2)
  else (s.line gr 0 i, s.line gr 1 i)

/-- What becomes of a line in a band (and window) with intensity position `p` whose eligibility is `eligible`. -/
def Sys2Proof.Claims.withPosition (s : State) (gr : Fin 2) (i : Nat) (eligible : Prop) (p : BitVec 4) (r : F32 × F32) : Prop :=
  (eligible → p.toNat < 7 → r = (fMul (s.line gr 0 i) (isRatio p.toNat).1, fMul (s.line gr 0 i) (isRatio p.toNat).2)) ∧
  (¬eligible ∨ 7 ≤ p.toNat → r = notIntensity s gr i)

/-- Intensity on long blocks: long bands 0 to 20 that start at or above channel 1's `COUNT1`, with position below 7, are intensity bands;
every other line is mid/side or untouched. (The model's choice: mid/side only below the larger `COUNT1` where lines from it on are not 0,
log 48; granule 1 of a frame with one granule, log 37.) -/
def Obligations.IntensityLong : Prop :=
  ∀ (gr : Fin 2) (s : State), s.hdr.mode = .joint → s.hdr.modeExt.getLsbD 0 = true →
    (s.gran gr 0).isShort = false → (s.gran gr 1).isShort = false →
    ∃ t, exec (.stereo gr) s = .next t ∧
      ∀ i b : Nat, i < 576 → b < 22 → s.longRow.getD b 0 ≤ i → i < s.longRow.getD (b + 1) 0 →
        withPosition s gr i (b ≤ 20 ∧ (s.gran gr 1).count1.toNat ≤ s.longRow.getD b 0) (s.scfLong gr 1 b)
          (t.line gr 0 i, t.line gr 1 i)

/-- Intensity on short and mixed blocks: short bands up to 11 (from 3 on in a mixed granule), each window with its own position, in the
interleaved layout; in a mixed granule the long bands that end at or below line 36. (The model's choice: mid/side only below the larger
`COUNT1` where lines from it on are not 0, log 48; granule 1 of a frame with one granule, log 37.) -/
def Obligations.IntensityShort : Prop :=
  ∀ (gr : Fin 2) (s : State), s.hdr.mode = .joint → s.hdr.modeExt.getLsbD 0 = true →
    (s.gran gr 0).isShort = true → (s.gran gr 1).isShort = true → (s.gran gr 0).mixed = (s.gran gr 1).mixed →
    ∃ t, exec (.stereo gr) s = .next t ∧
      (∀ b win j : Nat, b < 13 → win < 3 → j < s.shortRow.getD (b + 1) 0 - s.shortRow.getD b 0 →
        ((s.gran gr 0).mixed = true → 3 ≤ b) →
        let i := 3 * s.shortRow.getD b 0 + 3 * j + win
        withPosition s gr i (b ≤ 11 ∧ (s.gran gr 1).count1.toNat ≤ 3 * s.shortRow.getD b 0) (s.scfShort gr 1 b win)
          (t.line gr 0 i, t.line gr 1 i)) ∧
      (∀ i b : Nat, (s.gran gr 0).mixed = true → i < 36 → b < 22 → s.longRow.getD b 0 ≤ i → i < s.longRow.getD (b + 1) 0 →
        withPosition s gr i ((s.gran gr 1).count1.toNat ≤ s.longRow.getD b 0) (s.scfLong gr 1 b)
          (t.line gr 0 i, t.line gr 1 i))

/-! ### Antialias, hybrid synthesis, frequency inversion -/

/-- `ALIAS`: at each processed boundary the eight butterflies, both results from the two old values; every other line unchanged.
(A granule or channel the frame lacks: the model's choice, log 37.) -/
def Obligations.Antialias : Prop :=
  ∀ (gr ch : Fin 2) (s : State),
    let g := s.gran gr ch
    let sblim := if g.isShort then (if g.mixed then 2 else 0) else 32
    ∃ t, exec (.antialias gr ch) s = .next t ∧ t = { s with seq := ⟨.antialias, gr, ch⟩, xr := t.xr } ∧ OtherLines gr ch s t ∧
      (∀ sb i : Nat, 1 ≤ sb → sb < sblim → i < 8 →
        let lo := s.line gr ch (18 * sb - 1 - i)
        let up := s.line gr ch (18 * sb + i)
        t.line gr ch (18 * sb - 1 - i) = fSub (fMul lo (tabCs i)) (fMul up (tabCa i)) ∧
        t.line gr ch (18 * sb + i) = fAdd (fMul up (tabCs i)) (fMul lo (tabCa i))) ∧
      (∀ n : Nat, (∀ sb i : Nat, 1 ≤ sb → sb < sblim → i < 8 → n ≠ 18 * sb - 1 - i ∧ n ≠ 18 * sb + i) →
        t.line gr ch n = s.line gr ch n)

/-- `IMDCT.L` and `IMDCT.S`: every output as the rules' sums, in their order (as steps of their own: the model's choice,
log 20). -/
def Obligations.InverseTransforms : Prop :=
  ∀ (x : Bank F32 18) (s : State),
    (∀ bt : BlockType, bt ≠ .short → ∃ r : List F32, r.length = 36 ∧ exec (.imdctL x bt) s = .next { s with ret := .vals r } ∧
      ∀ p, p < 36 → r.getD p 0#32 = fMul (fSum 18 fun m => fMul (x.get m 0#32) (cos36 m p)) (imdctWin bt p)) ∧
    (∃ r : List F32, r.length = 36 ∧ exec (.imdctS x) s = .next { s with ret := .vals r } ∧
      ∀ p, p < 36 →
        let part (w : Nat) : F32 :=
          fMul (fSum 6 fun m => fMul (x.get (w + 3 * m) 0#32) (cos12 m (p - 6 - 6 * w))) (imdctWin .short (p - 6 - 6 * w))
        r.getD p 0#32 =
          if p < 6 then 0#32
          else if p < 12 then fAdd 0#32 (part 0)
          else if p < 18 then fAdd (fAdd 0#32 (part 0)) (part 1)
          else if p < 24 then fAdd (fAdd 0#32 (part 1)) (part 2)
          else if p < 30 then fAdd 0#32 (part 2)
          else 0#32)

/-- `OLA`: the first half added to the stored tail, the second half stored; the other subbands and channels unchanged (as a step of
its own: the model's choice, log 20). In a single-channel frame R231 and R258 neither read nor write `STORE[1]`: that `OLA` run for
channel 1 there does both is the model's choice too (log 37). -/
def Obligations.OverlapAdd : Prop :=
  ∀ (gr ch : Fin 2) (sb : Fin 32) (raw : Bank F32 36) (s : State),
    ∃ t, exec (.ola gr ch sb raw) s = .next t ∧ t = { s with xr := t.xr, store := t.store } ∧ OtherLines gr ch s t ∧
      (∀ i, i < 18 →
        t.line gr ch (18 * sb.val + i) = fAdd (raw.get i 0#32) (s.overlap ch sb.val i) ∧
        t.overlap ch sb.val i = raw.get (18 + i) 0#32) ∧
      (∀ sb' i : Nat, sb' ≠ sb.val → i < 18 →
        t.line gr ch (18 * sb' + i) = s.line gr ch (18 * sb' + i) ∧ t.overlap ch sb' i = s.overlap ch sb' i) ∧
      (∀ ch' : Fin 2, ch' ≠ ch → t.store.get ch' = s.store.get ch')

/-- `HYB`: each subband's 18 lines transformed by its block type's transform, overlapped with `STORE[ch]`, which takes the new tail.
In a single-channel frame R231 and R258 neither read nor write `STORE[1]`: that `HYB` run for channel 1 there does both is the model's
choice (log 37). -/
def Obligations.HybridSynthesis : Prop :=
  ∀ (gr ch : Fin 2) (s : State),
    ∃ t, exec (.hyb gr ch) s = .next t ∧ t = { s with seq := ⟨.hyb, gr, ch⟩, xr := t.xr, store := t.store } ∧
      OtherLines gr ch s t ∧ (∀ ch' : Fin 2, ch' ≠ ch → t.store.get ch' = s.store.get ch') ∧
      ∀ sb i : Nat, sb < 32 → i < 18 →
        let g := s.gran gr ch
        let bt := if g.winSwitch = true ∧ g.mixed = true ∧ sb < 2 then .normal else g.blockType
        let x : Bank F32 18 := .tab 18 fun k => s.line gr ch (18 * sb + k)
        let raw := if bt = .short then imdctS x else imdctL x bt
        t.line gr ch (18 * sb + i) = fAdd (raw.get i 0#32) (s.overlap ch sb i) ∧ t.overlap ch sb i = raw.get (18 + i) 0#32

/-- Silence through `HYB`: zero lines give the stored tail, and zero is stored; with a zero tail the output is zero. In a
single-channel frame R231 and R258 neither read nor write `STORE[1]`: that `HYB` run for channel 1 there reads and zeroes it is the
model's choice (log 37). -/
def Obligations.HybridSilence : Prop :=
  ∀ (gr ch : Fin 2) (s : State), s.lines gr ch = zeros 576 →
    ∃ t, exec (.hyb gr ch) s = .next t ∧ t.store.get ch = zeros 576 ∧
      (∀ sb i : Nat, sb < 32 → i < 18 → t.line gr ch (18 * sb + i) = fAdd 0#32 (s.overlap ch sb i)) ∧
      (s.store.get ch = zeros 576 → t.lines gr ch = zeros 576)

/-- `FINV`: exactly the odd samples of the odd subbands change sign; twice is the identity on the lines.
(A granule or channel the frame lacks: the model's choice, log 37.) -/
def Obligations.FrequencyInversion : Prop :=
  ∀ (gr ch : Fin 2) (s : State),
    ∃ t, exec (.finv gr ch) s = .next t ∧ t = { s with seq := ⟨.finv, gr, ch⟩, xr := t.xr } ∧ OtherLines gr ch s t ∧
      (∀ sb ss : Nat, sb < 32 → ss < 18 →
        t.line gr ch (18 * sb + ss) =
          if sb % 2 = 1 ∧ ss % 2 = 1 then fNeg (s.line gr ch (18 * sb + ss)) else s.line gr ch (18 * sb + ss)) ∧
      ∃ u, exec (.finv gr ch) t = .next u ∧ u.xr = s.xr

/-! ### Synthesis and PCM -/

/-- `PcmConvert` where the product is finite: the nearest integer, a tie away from zero, clipped to 16 bits; 0 gives 0 (as a step of its
own: the model's choice, log 20; a product that is not finite: log 16). -/
def Obligations.PcmConversion : Prop :=
  ∀ (x : F32) (s : State),
    (fFinite (fMul x (fOfInt 32767)) = true →
      ∃ n : Int, NearestAway (fMul x (fOfInt 32767)) n ∧
        exec (.pcmConvert x) s = .next { s with ret := .ints [max (-32768) (min 32767 n)] }) ∧
    (fUnits x = 0 → fFinite x = true → exec (.pcmConvert x) s = .next { s with ret := .ints [0] })

/-- `PCM.PACK`: the two bytes of the sample, low byte first, at `2304*gr + 4*t + 2*c` for each output channel `c`; every other byte of
`PCM` and all else unchanged; the sample is what `PcmConvert` returns, modulo 65536. (A granule or channel the frame lacks: the
model's choice, log 37.) -/
def Obligations.PcmPack : Prop :=
  ∀ (gr ch : Fin 2) (ss : Fin 18) (i : Fin 32) (x : F32) (s : State),
    let base (c : Fin 2) := 2304 * gr.val + 4 * (32 * ss.val + i.val) + 2 * c.val
    ∃ (t : State) (n : Int), exec (.pcmPack gr ss i ch x) s = .next t ∧ t = { s with pcm := t.pcm } ∧
      exec (.pcmConvert x) s = .next { s with ret := .ints [n] } ∧
      (∀ c : Fin 2, OutputOf s ch c →
        t.pcm.read (base c) = some (BitVec.ofInt 8 n) ∧ t.pcm.read (base c + 1) = some (BitVec.ofInt 8 (n / 256))) ∧
      (∀ a : Nat, (∀ c : Fin 2, OutputOf s ch c → a ≠ base c ∧ a ≠ base c + 1) → t.pcm.read a = s.pcm.read a)

/-- `SYNTH`: `VVEC[ch]` after 18 shifts and matrixings; each of the 576 samples, as windowed sums of the history of its step, at its bytes of
`PCM`; no other byte, no other history and nothing else changes. (A granule or channel the frame lacks: the model's choice,
log 37.) -/
def Obligations.Synthesis : Prop :=
  ∀ (gr ch : Fin 2) (s : State),
    ∃ t, exec (.synth gr ch) s = .next t ∧ t = { s with seq := ⟨.synth, gr, ch⟩, vvec := t.vvec, pcm := t.pcm } ∧
      (∀ j, j < 1024 → t.hist ch j = historyAfter s gr ch 18 j) ∧
      (∀ ch' : Fin 2, ch' ≠ ch → t.vvec.get ch' = s.vvec.get ch') ∧
      (∀ (c : Fin 2) (ss j : Nat), OutputOf s ch c → ss < 18 → j < 32 →
        let u := pcmConvert (sampleValue s gr ch ss j)
        let base := 2304 * gr.val + 4 * (32 * ss + j) + 2 * c.val
        t.pcm.read base = some (u.extractLsb' 0 8) ∧ t.pcm.read (base + 1) = some (u.extractLsb' 8 8)) ∧
      (∀ a : Nat, (a < 2304 * gr.val ∨ 2304 * gr.val + 2304 ≤ a ∨ (∀ c : Fin 2, OutputOf s ch c → a / 2 % 2 ≠ c.val)) →
        t.pcm.read a = s.pcm.read a)

/-! ### Commands -/

/-- `RESET`: the persistent files zero, the reservoir empty, the status, cause and sequencer clear. `IDLE`: the sequencer's position only
(as a step: the model's choice, log 4). -/
def Obligations.ResetAndIdle : Prop :=
  ∀ s : State,
    (∃ t, exec .reset s = .next t ∧
      (∀ (ch : Fin 2) (sb i : Nat), t.overlap ch sb i = 0#32) ∧ (∀ (ch : Fin 2) (j : Nat), t.hist ch j = 0#32) ∧
      t.rsv = [] ∧ t.status = ⟨false, false, false⟩ ∧ t.cause.code = 0 ∧ t.whr = ⟨.idle, 0, 0⟩ ∧ t.seq = ⟨.idle, 0, 0⟩ ∧
      t.outcome = .done) ∧
    exec .idle s = .next { s with seq := ⟨.idle, 0, 0⟩ }

/-- `FRAME` checks in order: the frame size, the image's length, the main-data size, the main data's length, the reservoir. -/
def Obligations.FrameCheckOrder : Prop :=
  ∀ (r : FrameRec) (s : State), r.wf = true → s.status.fault = false →
    let h := r.hdr
    let mdb := (unpackSi h r.siImage s.si).mainDataBegin.toNat
    ∃ t, exec (.frame r) s = .next t ∧
      (2000 < h.frameSize.toNat → Faulted .frameSize ⟨.loadsi, 0, 0⟩ t) ∧
      (h.frameSize.toNat ≤ 2000 → r.siImage.length < h.siSize → Faulted .siTruncated ⟨.loadsi, 0, 0⟩ t) ∧
      (h.frameSize.toNat ≤ 2000 → r.siImage.length = h.siSize → h.mainSize < 0 ∨ 1500 < h.mainSize →
        Faulted .mainSize ⟨.rsvCheck, 0, 0⟩ t) ∧
      (h.frameSize.toNat ≤ 2000 → r.siImage.length = h.siSize → 0 ≤ h.mainSize → h.mainSize ≤ 1500 →
        (r.main.length : Int) < h.mainSize → Faulted .mainTruncated ⟨.rsvRecv, 0, 0⟩ t) ∧
      (h.frameSize.toNat ≤ 2000 → r.siImage.length = h.siSize → 0 ≤ h.mainSize → h.mainSize ≤ 1500 →
        (r.main.length : Int) = h.mainSize → s.rsv.length < mdb →
        t.outcome = .skipped .rsvInsufficient ∧ t.status = ⟨false, true, false⟩ ∧ t.cause = .rsvInsufficient ∧
        t.whr = ⟨.rsvAppend, 0, 0⟩ ∧ t.seq = ⟨.idle, 0, 0⟩ ∧ t.rsv = s.rsv ++ r.main ∧
        t = { s with
          rsv := t.rsv, outcome := t.outcome, status := t.status, cause := t.cause, whr := t.whr, seq := t.seq, hdr := h,
          si := t.si })

/-- A record outside its type is refused (93_implementation_defined U6). Every other `FRAME` answers a next state; with `FAULT` clear it
ends with exactly one of the four outcomes, `SEQ` idle: `Pcm` with `576 * NGR * 4` bytes, every one of them written, and `PCM_VALID`;
`Skipped` and `SKIP`; a fault and `FAULT`. -/
def Obligations.FrameOutcomes : Prop :=
  ∀ (r : FrameRec) (s : State),
    (r.wf = true ↔ r.siImage.length ≤ r.hdr.siSize ∧ (r.main.length : Int) ≤ max r.hdr.mainSize 0) ∧
    (r.wf = false → exec (.frame r) s = .refused .recordOutsideType) ∧
    (r.wf = true → ∃ t, exec (.frame r) s = .next t ∧ (s.status.fault = false →
      t.seq = ⟨.idle, 0, 0⟩ ∧
      ((∃ bytes, t.outcome = .pcm bytes ∧ bytes.length = 576 * r.hdr.ngr * 4 ∧
          (∀ a, a < 576 * r.hdr.ngr * 4 → t.pcm.read a = bytes[a]?) ∧ t.status = ⟨false, false, true⟩) ∨
        (t.outcome = .skipped .rsvInsufficient ∧ t.cause = .rsvInsufficient ∧ t.status = ⟨false, true, false⟩) ∨
        (∃ c : Cause, Faulted c t.whr t ∧ 0 < c.code.toNat ∧ c.code.toNat < 0x20))))

/-- A `FRAME` that passes its checks and has its history either faults while it parses or reconstructs (causes 0x03 to 0x09), or its
outcome is `Pcm`, and then `RSV` and `MD` are the last `SI.MAIN_DATA_BEGIN` bytes of the old `RSV` and the frame's main data. -/
def Obligations.ReservoirAfterFrame : Prop :=
  ∀ (r : FrameRec) (s : State), s.status.fault = false → r.hdr.frameSize.toNat ≤ 2000 → r.siImage.length = r.hdr.siSize →
    (r.main.length : Int) = r.hdr.mainSize → r.main.length ≤ 1500 →
    (unpackSi r.hdr r.siImage s.si).mainDataBegin.toNat ≤ s.rsv.length →
    ∃ t, exec (.frame r) s = .next t ∧
      ((∃ c : Cause, Faulted c t.whr t ∧ 3 ≤ c.code.toNat ∧ c.code.toNat ≤ 9) ∨
        ∃ bytes, t.outcome = .pcm bytes ∧ t.rsv = t.md ∧
          t.rsv = s.rsv.drop (s.rsv.length - (unpackSi r.hdr r.siImage s.si).mainDataBegin.toNat) ++ r.main ∧
          (t.rsv.length : Int) = (unpackSi r.hdr r.siImage s.si).mainDataBegin.toNat + r.hdr.mainSize)

/-- The source's scenario: with `STORE` and `VVEC` zero (as after `RESET`), a frame whose side information is all zero gives PCM all
zero, whatever its main data, mode and sampling frequency, and leaves `STORE` and `VVEC` zero. -/
def Obligations.SilentFrame : Prop :=
  ∀ (r : FrameRec) (s : State), s.status.fault = false → s.store = .both (zeros 576) → s.vvec = .both (zeros 1024) →
    r.siImage = List.replicate r.hdr.siSize 0#8 → (r.main.length : Int) = r.hdr.mainSize → r.main.length ≤ 1500 →
    r.hdr.frameSize.toNat ≤ 2000 →
    ∃ t, exec (.frame r) s = .next t ∧ t.outcome = .pcm (List.replicate (576 * r.hdr.ngr * 4) 0#8) ∧
      t.status = ⟨false, false, true⟩ ∧ t.rsv = r.main ∧ t.store = .both (zeros 576) ∧ t.vvec = .both (zeros 1024)

/-- `PRIME k` is `RESET`, then `FRAME` for frames `max(k-2, 0)`, `k-1` (only where `k >= 2`) and `k`, over the host's list of frames
(that the list is the operand is the model's choice, log 24). -/
def Obligations.PrimeExpands : Prop :=
  ∀ (k : Nat) (frames : List FrameRec) (s : State), 1 ≤ k → k < frames.length → (∀ r ∈ frames, r.wf = true) →
    ∃ (r0 r1 r2 : FrameRec) (t : State), frames[k - 2]? = some r0 ∧ frames[k - 1]? = some r1 ∧ frames[k]? = some r2 ∧
      exec (.prime k frames) s = .next t ∧
      runAll (if 2 ≤ k then [.reset, .frame r0, .frame r1, .frame r2] else [.reset, .frame r0, .frame r2]) s = .next t

/-- A raise, for every cause row (log 26): `CAUSE`, `WHERE`, the flag, `SEQ` idle, the outcome by the class in the code's high nibble; after
`Skipped` nothing else changes. (The rows as steps, `PCM_VALID` cleared, and a raise while `FAULT` is 1, are the model's choice, logs
26, 27 and 40.) -/
def Obligations.RaiseRecords : Prop :=
  ∀ s : State,
    (∀ (i : Instr) (c : Cause), (i, c) ∈ ([(.causeFrameSize, .frameSize), (.causeMainSize, .mainSize),
        (.causeBitsOverrun, .bitsOverrun), (.causeScfCount, .scfCount), (.causeHuffTableReserved, .huffTableReserved),
        (.causeHuffIllegal, .huffIllegal), (.causeLineRange, .lineRange), (.causeRegionRange, .regionRange),
        (.causeStereoBlockMismatch, .stereoBlockMismatch), (.causeSiTruncated, .siTruncated),
        (.causeMainTruncated, .mainTruncated)] : List (Instr × Cause)) →
      ∃ t, exec i s = .next t ∧ Faulted c s.seq t) ∧
    exec .causeRsvInsufficient s =
      .next { s with
        cause := .rsvInsufficient, whr := s.seq, status := ⟨s.status.fault, true, false⟩, seq := ⟨.idle, 0, 0⟩,
        outcome := .skipped .rsvInsufficient }
end

