-- ==== Sys2Proof/Laws/Bank.lean ====
section
/-! SUPPORT. Reading and writing the two fixed-size containers. -/

namespace Sys2Proof

@[simp] theorem Bank.tab_cells {α : Type} (n : Nat) (f : Nat → α) : (Bank.tab n f).cells = (List.range n).map f := rfl

/-- A cell of a tabulated row. -/
theorem Bank.get_tab {α : Type} {n i : Nat} (f : Nat → α) (d : α) (h : i < n) : (Bank.tab n f).get i d = f i := by
  simp [Bank.get, Bank.tab, h]

/-- Beyond the row. -/
theorem Bank.get_of_le {α : Type} {n i : Nat} (b : Bank α n) (d : α) (h : n ≤ i) : b.get i d = d := by
  have := b.len
  simp [Bank.get, this, h]

theorem Bank.get_set_same {α : Type} {n i : Nat} (b : Bank α n) (x d : α) (h : i < n) : (b.set i x).get i d = x := by
  have := b.len
  simp [Bank.get, Bank.set, this, h]

theorem Bank.get_set_other {α : Type} {n i j : Nat} (b : Bank α n) (x d : α) (h : i ≠ j) :
    (b.set i x).get j d = b.get j d := by
  simp [Bank.get, Bank.set, List.getD, List.getElem?_set_ne h]

/-- Rows with the same cells are equal. -/
theorem Bank.ext_get {α : Type} {n : Nat} {a b : Bank α n} (d : α) (h : ∀ i, i < n → a.get i d = b.get i d) : a = b := by
  obtain ⟨as, ha⟩ := a
  obtain ⟨bs, hb⟩ := b
  simp only [Bank.mk.injEq]
  apply List.ext_getElem (by omega)
  intro i h1 h2
  have := h i (by omega)
  simpa [Bank.get, List.getD, h1, h2] using this

/-- A row is the table of its cells. -/
theorem Bank.tab_get {α : Type} {n : Nat} (b : Bank α n) (d : α) : Bank.tab n (fun i => b.get i d) = b :=
  Bank.ext_get d fun _ h => Bank.get_tab _ _ h

@[simp] theorem Two.get_zero {α : Type} (p : Two α) : p.get 0 = p.zero := rfl

@[simp] theorem Two.get_one {α : Type} (p : Two α) : p.get 1 = p.one := rfl

@[simp] theorem Two.get_set_same {α : Type} (p : Two α) (i : Fin 2) (x : α) : (p.set i x).get i = x := by
  simp only [Two.get, Two.set]; split <;> simp

@[simp] theorem Two.get_set {α : Type} (p : Two α) (i j : Fin 2) (x : α) :
    (p.set i x).get j = if i = j then x else p.get j := by
  match i, j with
  | 0, 0 => rfl
  | 0, 1 => rfl
  | 1, 0 => rfl
  | 1, 1 => rfl

@[simp] theorem Two.set_set {α : Type} (p : Two α) (i : Fin 2) (x y : α) : (p.set i x).set i y = p.set i y := by
  simp only [Two.set]; split <;> rfl

@[simp] theorem Two.set_get {α : Type} (p : Two α) (i : Fin 2) : p.set i (p.get i) = p := by
  simp only [Two.set, Two.get]; split <;> rfl

@[simp] theorem Two.get_both {α : Type} (x : α) (i : Fin 2) : (Two.both x).get i = x := by
  simp [Two.get, Two.both]

@[simp] theorem Two.get_tab {α : Type} (f : Fin 2 → α) (i : Fin 2) : (Two.tab f).get i = f i := by
  match i with
  | 0 => rfl
  | 1 => rfl

/-- Pairs with the same members are equal. -/
theorem Two.ext_get {α : Type} {p q : Two α} (h : ∀ i, p.get i = q.get i) : p = q := by
  obtain ⟨a, b⟩ := p
  obtain ⟨c, d⟩ := q
  have h0 := h 0
  have h1 := h 1
  simp_all

end Sys2Proof
end

