-- ==== Sys2Proof/Laws/Memory.lean ====
section
/-! SUPPORT. The `PCM` memory: every operation keeps the canonical form; a read after a write. -/

namespace Sys2Proof.Machine

theorem Memory.wf_nil : Memory.wf [] = true := rfl

/-- The form, address by address: strictly rising and inside `PCM`. -/
theorem Memory.wf_iff (m : Memory) :
    Memory.wf m = true ↔ m.Pairwise (fun c d => c.1 < d.1) ∧ ∀ c ∈ m, c.1 < pcmSize := by
  induction m with
  | nil => simp [Memory.wf]
  | cons c rest ih =>
    obtain ⟨a, x⟩ := c
    cases rest with
    | nil => simp [Memory.wf]
    | cons d rest =>
      obtain ⟨b, y⟩ := d
      simp only [Memory.wf, Bool.and_eq_true, decide_eq_true_eq, ih]
      constructor
      · rintro ⟨hab, hp, hs⟩
        refine ⟨List.pairwise_cons.2 ⟨?_, hp⟩, ?_⟩
        · intro e he
          rcases List.mem_cons.1 he with rfl | he
          · exact hab
          · exact lt_trans hab ((List.pairwise_cons.1 hp).1 e he)
        · intro e he
          rcases List.mem_cons.1 he with rfl | he
          · exact lt_trans hab (hs (b, y) (by simp))
          · exact hs e he
      · rintro ⟨hp, hs⟩
        exact ⟨(List.pairwise_cons.1 hp).1 (b, y) (by simp), (List.pairwise_cons.1 hp).2, fun e he => hs e (by simp [he])⟩

/-- The addresses after a write. -/
theorem Memory.mem_write {m : Memory} {b : Nat} {y : Byte} {c : Host.Cell} (h : c ∈ Memory.write m b y) :
    c = (b, y) ∨ c ∈ m := by
  induction m with
  | nil => simpa [Memory.write] using h
  | cons d rest ih =>
    obtain ⟨a, x⟩ := d
    simp only [Memory.write] at h
    split at h
    · rcases List.mem_cons.1 h with h | h
      · exact .inl h
      · exact .inr h
    · split at h
      · rcases List.mem_cons.1 h with h | h
        · exact .inl h
        · exact .inr (List.mem_cons_of_mem _ h)
      · rcases List.mem_cons.1 h with h | h
        · exact .inr (h ▸ List.mem_cons_self)
        · rcases ih h with h | h
          · exact .inl h
          · exact .inr (List.mem_cons_of_mem _ h)

/-- A write inside `PCM` keeps the form. -/
theorem Memory.wf_write {m : Memory} {b : Nat} (y : Byte) (hm : Memory.wf m = true) (hb : b < pcmSize) :
    Memory.wf (Memory.write m b y) = true := by
  rw [Memory.wf_iff] at hm ⊢
  refine ⟨?_, fun c hc => (Memory.mem_write hc).elim (fun h => h ▸ hb) (hm.2 c)⟩
  have hp := hm.1
  clear hm
  induction m with
  | nil => simp [Memory.write]
  | cons d rest ih =>
    obtain ⟨a, x⟩ := d
    have hr := List.pairwise_cons.1 hp
    simp only [Memory.write]
    split
    · refine List.pairwise_cons.2 ⟨fun e he => ?_, hp⟩
      rcases List.mem_cons.1 he with rfl | he
      · assumption
      · exact lt_trans ‹_› (hr.1 e he)
    · split
      · subst_vars
        exact List.pairwise_cons.2 ⟨hr.1, hr.2⟩
      · refine List.pairwise_cons.2 ⟨fun e he => ?_, ih hr.2⟩
        rcases Memory.mem_write he with rfl | he
        · show a < b
          omega
        · exact hr.1 e he

/-- A read after a write to the same address. -/
@[simp] theorem Memory.read_write_same (m : Memory) (b : Nat) (y : Byte) : Memory.read (Memory.write m b y) b = some y := by
  induction m with
  | nil => simp [Memory.write, Memory.read]
  | cons d rest ih =>
    obtain ⟨a, x⟩ := d
    simp only [Memory.write]
    split
    · simp [Memory.read]
    · split
      · simp [Memory.read]
      · simp [Memory.read, *]

/-- A write leaves every other address alone. -/
theorem Memory.read_write_other (m : Memory) {a b : Nat} (y : Byte) (h : a ≠ b) :
    Memory.read (Memory.write m b y) a = Memory.read m a := by
  induction m with
  | nil => simp [Memory.write, Memory.read, h.symm]
  | cons d rest ih =>
    obtain ⟨c, x⟩ := d
    simp only [Memory.write]
    split
    · simp [Memory.read, h.symm]
    · split
      · subst_vars
        simp [Memory.read, h.symm]
      · simp [Memory.read, ih]

/-- Both at once. -/
theorem Memory.read_write (m : Memory) (a b : Nat) (y : Byte) :
    Memory.read (Memory.write m b y) a = if a = b then some y else Memory.read m a := by
  split
  · subst_vars; simp
  · exact Memory.read_write_other m y ‹_›

/-- A table of bytes by rising address is in the form. -/
theorem Memory.wf_range (n : Nat) (f : Nat → Byte) (h : n ≤ pcmSize) :
    Memory.wf ((List.range n).map fun a => (a, f a)) = true := by
  rw [Memory.wf_iff, List.pairwise_map]
  refine ⟨List.pairwise_lt_range, fun c hc => ?_⟩
  obtain ⟨a, ha, rfl⟩ := List.mem_map.1 hc
  exact lt_of_lt_of_le (List.mem_range.1 ha) h

theorem scramble_pcm (operands : List Byte) (s : State) : (scramble operands s).pcm =
    (List.range pcmSize).map fun a => (a, BitVec.ofNat 8 (Config.anyNat 10 operands s a)) := by
  rw [scramble, scramble.anyPcm, pcmSize]

/-- The bytes a fault leaves are in the form. -/
theorem scramble_pcm_wf (operands : List Byte) (s : State) : Memory.wf (scramble operands s).pcm = true := by
  rw [scramble_pcm]
  exact Memory.wf_range pcmSize _ le_rfl

/-- Reset memory is in the form. -/
theorem reset_pcm_wf : Memory.wf State.reset.pcm = true := rfl

end Sys2Proof.Machine
end

