-- ==== Sys2Proof/Laws/Exception.lean ====
section
/-! SUPPORT. What taking an exception and `RESET` do, field by field. -/

namespace Sys2Proof.Machine

@[simp] theorem recordRaise_xr (c : Cause) (pos : SeqPos) (f : Status) (t : State) : (recordRaise c pos f t).xr = t.xr := rfl
@[simp] theorem recordRaise_scfL (c : Cause) (pos : SeqPos) (f : Status) (t : State) : (recordRaise c pos f t).scfL = t.scfL := rfl
@[simp] theorem recordRaise_scfS (c : Cause) (pos : SeqPos) (f : Status) (t : State) : (recordRaise c pos f t).scfS = t.scfS := rfl
@[simp] theorem recordRaise_seq (c : Cause) (pos : SeqPos) (f : Status) (t : State) : (recordRaise c pos f t).seq = .idle := rfl
@[simp] theorem recordRaise_bitpos (c : Cause) (pos : SeqPos) (f : Status) (t : State) : (recordRaise c pos f t).bitpos = t.bitpos := rfl
@[simp] theorem recordRaise_status (c : Cause) (pos : SeqPos) (f : Status) (t : State) : (recordRaise c pos f t).status = f.raised c.exn := rfl
@[simp] theorem recordRaise_cause (c : Cause) (pos : SeqPos) (f : Status) (t : State) : (recordRaise c pos f t).cause = c := rfl
@[simp] theorem recordRaise_whr (c : Cause) (pos : SeqPos) (f : Status) (t : State) : (recordRaise c pos f t).whr = pos := rfl
@[simp] theorem recordRaise_hdr (c : Cause) (pos : SeqPos) (f : Status) (t : State) : (recordRaise c pos f t).hdr = t.hdr := rfl
@[simp] theorem recordRaise_si (c : Cause) (pos : SeqPos) (f : Status) (t : State) : (recordRaise c pos f t).si = t.si := rfl
@[simp] theorem recordRaise_store (c : Cause) (pos : SeqPos) (f : Status) (t : State) : (recordRaise c pos f t).store = t.store := rfl
@[simp] theorem recordRaise_vvec (c : Cause) (pos : SeqPos) (f : Status) (t : State) : (recordRaise c pos f t).vvec = t.vvec := rfl
@[simp] theorem recordRaise_rsv (c : Cause) (pos : SeqPos) (f : Status) (t : State) : (recordRaise c pos f t).rsv = t.rsv := rfl
@[simp] theorem recordRaise_md (c : Cause) (pos : SeqPos) (f : Status) (t : State) : (recordRaise c pos f t).md = t.md := rfl
@[simp] theorem recordRaise_pcm (c : Cause) (pos : SeqPos) (f : Status) (t : State) : (recordRaise c pos f t).pcm = t.pcm := rfl
@[simp] theorem recordRaise_port (c : Cause) (pos : SeqPos) (f : Status) (t : State) : (recordRaise c pos f t).port = t.port := rfl
@[simp] theorem recordRaise_bench (c : Cause) (pos : SeqPos) (f : Status) (t : State) : (recordRaise c pos f t).bench = t.bench := rfl
@[simp] theorem recordRaise_outcome (c : Cause) (pos : SeqPos) (f : Status) (t : State) : (recordRaise c pos f t).outcome = Cause.outcome c := rfl
@[simp] theorem recordRaise_ret (c : Cause) (pos : SeqPos) (f : Status) (t : State) : (recordRaise c pos f t).ret = t.ret := rfl
@[simp] theorem recordRaise_free (c : Cause) (pos : SeqPos) (f : Status) (t : State) : (recordRaise c pos f t).free = t.free := rfl

@[simp] theorem clearPersistent_xr (t : State) : (clearPersistent t).xr = t.xr := rfl
@[simp] theorem clearPersistent_scfL (t : State) : (clearPersistent t).scfL = t.scfL := rfl
@[simp] theorem clearPersistent_scfS (t : State) : (clearPersistent t).scfS = t.scfS := rfl
@[simp] theorem clearPersistent_seq (t : State) : (clearPersistent t).seq = .idle := rfl
@[simp] theorem clearPersistent_bitpos (t : State) : (clearPersistent t).bitpos = t.bitpos := rfl
@[simp] theorem clearPersistent_status (t : State) : (clearPersistent t).status = Status.clear := rfl
@[simp] theorem clearPersistent_cause (t : State) : (clearPersistent t).cause = .noCause := rfl
@[simp] theorem clearPersistent_whr (t : State) : (clearPersistent t).whr = .idle := rfl
@[simp] theorem clearPersistent_hdr (t : State) : (clearPersistent t).hdr = t.hdr := rfl
@[simp] theorem clearPersistent_si (t : State) : (clearPersistent t).si = t.si := rfl
@[simp] theorem clearPersistent_store (t : State) : (clearPersistent t).store = .both (zeros 576) := rfl
@[simp] theorem clearPersistent_vvec (t : State) : (clearPersistent t).vvec = .both (zeros 1024) := rfl
@[simp] theorem clearPersistent_rsv (t : State) : (clearPersistent t).rsv = [] := rfl
@[simp] theorem clearPersistent_md (t : State) : (clearPersistent t).md = t.md := rfl
@[simp] theorem clearPersistent_pcm (t : State) : (clearPersistent t).pcm = t.pcm := rfl
@[simp] theorem clearPersistent_port (t : State) : (clearPersistent t).port = t.port := rfl
@[simp] theorem clearPersistent_bench (t : State) : (clearPersistent t).bench = t.bench := rfl
@[simp] theorem clearPersistent_outcome (t : State) : (clearPersistent t).outcome = .done := rfl
@[simp] theorem clearPersistent_ret (t : State) : (clearPersistent t).ret = t.ret := rfl
@[simp] theorem clearPersistent_free (t : State) : (clearPersistent t).free = t.free := rfl

@[simp] theorem takeException_cause (c : Cause) (ops : List Byte) (s : State) : (takeException c ops s).cause = c := rfl
@[simp] theorem takeException_whr (c : Cause) (ops : List Byte) (s : State) : (takeException c ops s).whr = s.seq := rfl
@[simp] theorem takeException_status (c : Cause) (ops : List Byte) (s : State) : (takeException c ops s).status = s.status.raised c.exn := rfl
@[simp] theorem takeException_seq (c : Cause) (ops : List Byte) (s : State) : (takeException c ops s).seq = .idle := rfl
@[simp] theorem takeException_outcome (c : Cause) (ops : List Byte) (s : State) : (takeException c ops s).outcome = Cause.outcome c := rfl
@[simp] theorem resetState_store (s : State) : (resetState s).store = .both (zeros 576) := rfl
@[simp] theorem resetState_vvec (s : State) : (resetState s).vvec = .both (zeros 1024) := rfl
@[simp] theorem resetState_rsv (s : State) : (resetState s).rsv = [] := rfl
@[simp] theorem resetState_status (s : State) : (resetState s).status = Status.clear := rfl
@[simp] theorem resetState_cause (s : State) : (resetState s).cause = .noCause := rfl
@[simp] theorem resetState_whr (s : State) : (resetState s).whr = .idle := rfl
@[simp] theorem resetState_seq (s : State) : (resetState s).seq = .idle := rfl
@[simp] theorem resetState_outcome (s : State) : (resetState s).outcome = .done := rfl
theorem scramble_port (ops : List Byte) (s : State) : (scramble ops s).port = s.port := by rw [scramble]
theorem scramble_bench (ops : List Byte) (s : State) : (scramble ops s).bench = s.bench := by rw [scramble]
theorem scramble_ret (ops : List Byte) (s : State) : (scramble ops s).ret = s.ret := by rw [scramble]
theorem scramble_free (ops : List Byte) (s : State) : (scramble ops s).free = s.free + 1 := by rw [scramble]

@[simp] theorem takeException_port (c : Cause) (ops : List Byte) (s : State) : (takeException c ops s).port = s.port := by
  rw [takeException, recordRaise_port]
  cases c.exn
  · exact scramble_port ops s
  · exact scramble_port ops s
  · rfl

@[simp] theorem takeException_bench (c : Cause) (ops : List Byte) (s : State) : (takeException c ops s).bench = s.bench := by
  rw [takeException, recordRaise_bench]
  cases c.exn
  · exact scramble_bench ops s
  · exact scramble_bench ops s
  · rfl

@[simp] theorem resetState_bench (s : State) : (resetState s).bench = s.bench := by
  rw [resetState, clearPersistent_bench, scramble_bench]

@[simp] theorem resetState_port (s : State) : (resetState s).port = s.port := by
  rw [resetState, clearPersistent_port, scramble_port]

@[simp] theorem takeException_ret (c : Cause) (ops : List Byte) (s : State) : (takeException c ops s).ret = s.ret := by
  rw [takeException, recordRaise_ret]
  cases c.exn
  · exact scramble_ret ops s
  · exact scramble_ret ops s
  · rfl

@[simp] theorem resetState_ret (s : State) : (resetState s).ret = s.ret := by
  rw [resetState, clearPersistent_ret, scramble_ret]

/-- A fault or an end of stream takes a fresh set of free values. -/
theorem takeException_free (c : Cause) (ops : List Byte) (s : State) :
    (takeException c ops s).free = if c.exn = .skipped then s.free else s.free + 1 := by
  rw [takeException, recordRaise_free]
  cases c.exn
  · exact scramble_free ops s
  · exact scramble_free ops s
  · rfl

@[simp] theorem resetState_free (s : State) : (resetState s).free = s.free + 1 := by
  rw [resetState, clearPersistent_free, scramble_free]

/-- `Skipped` keeps everything it does not record (60_exceptions R290). -/
theorem takeException_skipped (ops : List Byte) (s : State) :
    takeException .rsvInsufficient ops s = recordRaise .rsvInsufficient s.seq s.status s := rfl

/-- Taking an exception keeps `PCM` in its form. -/
theorem takeException_pcm_wf {s : State} (c : Cause) (ops : List Byte) (h : Memory.wf s.pcm = true) :
    Memory.wf (takeException c ops s).pcm = true := by
  rw [takeException, recordRaise_pcm]
  cases c.exn
  · exact scramble_pcm_wf ops s
  · exact scramble_pcm_wf ops s
  · exact h

/-- `RESET` keeps `PCM` in its form. -/
theorem resetState_pcm_wf (s : State) : Memory.wf (resetState s).pcm = true := by
  rw [resetState, clearPersistent_pcm]
  exact scramble_pcm_wf [] s

end Sys2Proof.Machine
end

