-- ==== Sys2Proof/Laws/State.lean ====
section
/-! SUPPORT. One lemma per field per update of the state, each true by unfolding; later proofs rewrite with these and open no
record. -/

namespace Sys2Proof.Machine

@[simp] theorem State.setLines_xr (s : State) (gr ch : Fin 2) (v : Lines) : (s.setLines gr ch v).xr = s.xr.set gr ((s.xr.get gr).set ch v) := rfl
@[simp] theorem State.setLines_scfL (s : State) (gr ch : Fin 2) (v : Lines) : (s.setLines gr ch v).scfL = s.scfL := rfl
@[simp] theorem State.setLines_scfS (s : State) (gr ch : Fin 2) (v : Lines) : (s.setLines gr ch v).scfS = s.scfS := rfl
@[simp] theorem State.setLines_seq (s : State) (gr ch : Fin 2) (v : Lines) : (s.setLines gr ch v).seq = s.seq := rfl
@[simp] theorem State.setLines_bitpos (s : State) (gr ch : Fin 2) (v : Lines) : (s.setLines gr ch v).bitpos = s.bitpos := rfl
@[simp] theorem State.setLines_status (s : State) (gr ch : Fin 2) (v : Lines) : (s.setLines gr ch v).status = s.status := rfl
@[simp] theorem State.setLines_cause (s : State) (gr ch : Fin 2) (v : Lines) : (s.setLines gr ch v).cause = s.cause := rfl
@[simp] theorem State.setLines_whr (s : State) (gr ch : Fin 2) (v : Lines) : (s.setLines gr ch v).whr = s.whr := rfl
@[simp] theorem State.setLines_hdr (s : State) (gr ch : Fin 2) (v : Lines) : (s.setLines gr ch v).hdr = s.hdr := rfl
@[simp] theorem State.setLines_si (s : State) (gr ch : Fin 2) (v : Lines) : (s.setLines gr ch v).si = s.si := rfl
@[simp] theorem State.setLines_store (s : State) (gr ch : Fin 2) (v : Lines) : (s.setLines gr ch v).store = s.store := rfl
@[simp] theorem State.setLines_vvec (s : State) (gr ch : Fin 2) (v : Lines) : (s.setLines gr ch v).vvec = s.vvec := rfl
@[simp] theorem State.setLines_rsv (s : State) (gr ch : Fin 2) (v : Lines) : (s.setLines gr ch v).rsv = s.rsv := rfl
@[simp] theorem State.setLines_md (s : State) (gr ch : Fin 2) (v : Lines) : (s.setLines gr ch v).md = s.md := rfl
@[simp] theorem State.setLines_pcm (s : State) (gr ch : Fin 2) (v : Lines) : (s.setLines gr ch v).pcm = s.pcm := rfl
@[simp] theorem State.setLines_port (s : State) (gr ch : Fin 2) (v : Lines) : (s.setLines gr ch v).port = s.port := rfl
@[simp] theorem State.setLines_bench (s : State) (gr ch : Fin 2) (v : Lines) : (s.setLines gr ch v).bench = s.bench := rfl
@[simp] theorem State.setLines_outcome (s : State) (gr ch : Fin 2) (v : Lines) : (s.setLines gr ch v).outcome = s.outcome := rfl
@[simp] theorem State.setLines_ret (s : State) (gr ch : Fin 2) (v : Lines) : (s.setLines gr ch v).ret = s.ret := rfl
@[simp] theorem State.setLines_free (s : State) (gr ch : Fin 2) (v : Lines) : (s.setLines gr ch v).free = s.free := rfl

@[simp] theorem State.setLine_xr (s : State) (gr ch : Fin 2) (i : Nat) (v : F32) : (s.setLine gr ch i v).xr = s.xr.set gr ((s.xr.get gr).set ch ((s.lines gr ch).set i v)) := rfl
@[simp] theorem State.setLine_scfL (s : State) (gr ch : Fin 2) (i : Nat) (v : F32) : (s.setLine gr ch i v).scfL = s.scfL := rfl
@[simp] theorem State.setLine_scfS (s : State) (gr ch : Fin 2) (i : Nat) (v : F32) : (s.setLine gr ch i v).scfS = s.scfS := rfl
@[simp] theorem State.setLine_seq (s : State) (gr ch : Fin 2) (i : Nat) (v : F32) : (s.setLine gr ch i v).seq = s.seq := rfl
@[simp] theorem State.setLine_bitpos (s : State) (gr ch : Fin 2) (i : Nat) (v : F32) : (s.setLine gr ch i v).bitpos = s.bitpos := rfl
@[simp] theorem State.setLine_status (s : State) (gr ch : Fin 2) (i : Nat) (v : F32) : (s.setLine gr ch i v).status = s.status := rfl
@[simp] theorem State.setLine_cause (s : State) (gr ch : Fin 2) (i : Nat) (v : F32) : (s.setLine gr ch i v).cause = s.cause := rfl
@[simp] theorem State.setLine_whr (s : State) (gr ch : Fin 2) (i : Nat) (v : F32) : (s.setLine gr ch i v).whr = s.whr := rfl
@[simp] theorem State.setLine_hdr (s : State) (gr ch : Fin 2) (i : Nat) (v : F32) : (s.setLine gr ch i v).hdr = s.hdr := rfl
@[simp] theorem State.setLine_si (s : State) (gr ch : Fin 2) (i : Nat) (v : F32) : (s.setLine gr ch i v).si = s.si := rfl
@[simp] theorem State.setLine_store (s : State) (gr ch : Fin 2) (i : Nat) (v : F32) : (s.setLine gr ch i v).store = s.store := rfl
@[simp] theorem State.setLine_vvec (s : State) (gr ch : Fin 2) (i : Nat) (v : F32) : (s.setLine gr ch i v).vvec = s.vvec := rfl
@[simp] theorem State.setLine_rsv (s : State) (gr ch : Fin 2) (i : Nat) (v : F32) : (s.setLine gr ch i v).rsv = s.rsv := rfl
@[simp] theorem State.setLine_md (s : State) (gr ch : Fin 2) (i : Nat) (v : F32) : (s.setLine gr ch i v).md = s.md := rfl
@[simp] theorem State.setLine_pcm (s : State) (gr ch : Fin 2) (i : Nat) (v : F32) : (s.setLine gr ch i v).pcm = s.pcm := rfl
@[simp] theorem State.setLine_port (s : State) (gr ch : Fin 2) (i : Nat) (v : F32) : (s.setLine gr ch i v).port = s.port := rfl
@[simp] theorem State.setLine_bench (s : State) (gr ch : Fin 2) (i : Nat) (v : F32) : (s.setLine gr ch i v).bench = s.bench := rfl
@[simp] theorem State.setLine_outcome (s : State) (gr ch : Fin 2) (i : Nat) (v : F32) : (s.setLine gr ch i v).outcome = s.outcome := rfl
@[simp] theorem State.setLine_ret (s : State) (gr ch : Fin 2) (i : Nat) (v : F32) : (s.setLine gr ch i v).ret = s.ret := rfl
@[simp] theorem State.setLine_free (s : State) (gr ch : Fin 2) (i : Nat) (v : F32) : (s.setLine gr ch i v).free = s.free := rfl

@[simp] theorem State.setGran_xr (s : State) (gr ch : Fin 2) (g : Gran) : (s.setGran gr ch g).xr = s.xr := rfl
@[simp] theorem State.setGran_scfL (s : State) (gr ch : Fin 2) (g : Gran) : (s.setGran gr ch g).scfL = s.scfL := rfl
@[simp] theorem State.setGran_scfS (s : State) (gr ch : Fin 2) (g : Gran) : (s.setGran gr ch g).scfS = s.scfS := rfl
@[simp] theorem State.setGran_seq (s : State) (gr ch : Fin 2) (g : Gran) : (s.setGran gr ch g).seq = s.seq := rfl
@[simp] theorem State.setGran_bitpos (s : State) (gr ch : Fin 2) (g : Gran) : (s.setGran gr ch g).bitpos = s.bitpos := rfl
@[simp] theorem State.setGran_status (s : State) (gr ch : Fin 2) (g : Gran) : (s.setGran gr ch g).status = s.status := rfl
@[simp] theorem State.setGran_cause (s : State) (gr ch : Fin 2) (g : Gran) : (s.setGran gr ch g).cause = s.cause := rfl
@[simp] theorem State.setGran_whr (s : State) (gr ch : Fin 2) (g : Gran) : (s.setGran gr ch g).whr = s.whr := rfl
@[simp] theorem State.setGran_hdr (s : State) (gr ch : Fin 2) (g : Gran) : (s.setGran gr ch g).hdr = s.hdr := rfl
@[simp] theorem State.setGran_si (s : State) (gr ch : Fin 2) (g : Gran) : (s.setGran gr ch g).si = { s.si with gran := s.si.gran.set gr ((s.si.gran.get gr).set ch g) } := rfl
@[simp] theorem State.setGran_store (s : State) (gr ch : Fin 2) (g : Gran) : (s.setGran gr ch g).store = s.store := rfl
@[simp] theorem State.setGran_vvec (s : State) (gr ch : Fin 2) (g : Gran) : (s.setGran gr ch g).vvec = s.vvec := rfl
@[simp] theorem State.setGran_rsv (s : State) (gr ch : Fin 2) (g : Gran) : (s.setGran gr ch g).rsv = s.rsv := rfl
@[simp] theorem State.setGran_md (s : State) (gr ch : Fin 2) (g : Gran) : (s.setGran gr ch g).md = s.md := rfl
@[simp] theorem State.setGran_pcm (s : State) (gr ch : Fin 2) (g : Gran) : (s.setGran gr ch g).pcm = s.pcm := rfl
@[simp] theorem State.setGran_port (s : State) (gr ch : Fin 2) (g : Gran) : (s.setGran gr ch g).port = s.port := rfl
@[simp] theorem State.setGran_bench (s : State) (gr ch : Fin 2) (g : Gran) : (s.setGran gr ch g).bench = s.bench := rfl
@[simp] theorem State.setGran_outcome (s : State) (gr ch : Fin 2) (g : Gran) : (s.setGran gr ch g).outcome = s.outcome := rfl
@[simp] theorem State.setGran_ret (s : State) (gr ch : Fin 2) (g : Gran) : (s.setGran gr ch g).ret = s.ret := rfl
@[simp] theorem State.setGran_free (s : State) (gr ch : Fin 2) (g : Gran) : (s.setGran gr ch g).free = s.free := rfl

@[simp] theorem State.setScfLong_xr (s : State) (gr ch : Fin 2) (b : Nat) (v : BitVec 4) : (s.setScfLong gr ch b v).xr = s.xr := rfl
@[simp] theorem State.setScfLong_scfL (s : State) (gr ch : Fin 2) (b : Nat) (v : BitVec 4) : (s.setScfLong gr ch b v).scfL = s.scfL.set gr ((s.scfL.get gr).set ch (((s.scfL.get gr).get ch).set b v)) := rfl
@[simp] theorem State.setScfLong_scfS (s : State) (gr ch : Fin 2) (b : Nat) (v : BitVec 4) : (s.setScfLong gr ch b v).scfS = s.scfS := rfl
@[simp] theorem State.setScfLong_seq (s : State) (gr ch : Fin 2) (b : Nat) (v : BitVec 4) : (s.setScfLong gr ch b v).seq = s.seq := rfl
@[simp] theorem State.setScfLong_bitpos (s : State) (gr ch : Fin 2) (b : Nat) (v : BitVec 4) : (s.setScfLong gr ch b v).bitpos = s.bitpos := rfl
@[simp] theorem State.setScfLong_status (s : State) (gr ch : Fin 2) (b : Nat) (v : BitVec 4) : (s.setScfLong gr ch b v).status = s.status := rfl
@[simp] theorem State.setScfLong_cause (s : State) (gr ch : Fin 2) (b : Nat) (v : BitVec 4) : (s.setScfLong gr ch b v).cause = s.cause := rfl
@[simp] theorem State.setScfLong_whr (s : State) (gr ch : Fin 2) (b : Nat) (v : BitVec 4) : (s.setScfLong gr ch b v).whr = s.whr := rfl
@[simp] theorem State.setScfLong_hdr (s : State) (gr ch : Fin 2) (b : Nat) (v : BitVec 4) : (s.setScfLong gr ch b v).hdr = s.hdr := rfl
@[simp] theorem State.setScfLong_si (s : State) (gr ch : Fin 2) (b : Nat) (v : BitVec 4) : (s.setScfLong gr ch b v).si = s.si := rfl
@[simp] theorem State.setScfLong_store (s : State) (gr ch : Fin 2) (b : Nat) (v : BitVec 4) : (s.setScfLong gr ch b v).store = s.store := rfl
@[simp] theorem State.setScfLong_vvec (s : State) (gr ch : Fin 2) (b : Nat) (v : BitVec 4) : (s.setScfLong gr ch b v).vvec = s.vvec := rfl
@[simp] theorem State.setScfLong_rsv (s : State) (gr ch : Fin 2) (b : Nat) (v : BitVec 4) : (s.setScfLong gr ch b v).rsv = s.rsv := rfl
@[simp] theorem State.setScfLong_md (s : State) (gr ch : Fin 2) (b : Nat) (v : BitVec 4) : (s.setScfLong gr ch b v).md = s.md := rfl
@[simp] theorem State.setScfLong_pcm (s : State) (gr ch : Fin 2) (b : Nat) (v : BitVec 4) : (s.setScfLong gr ch b v).pcm = s.pcm := rfl
@[simp] theorem State.setScfLong_port (s : State) (gr ch : Fin 2) (b : Nat) (v : BitVec 4) : (s.setScfLong gr ch b v).port = s.port := rfl
@[simp] theorem State.setScfLong_bench (s : State) (gr ch : Fin 2) (b : Nat) (v : BitVec 4) : (s.setScfLong gr ch b v).bench = s.bench := rfl
@[simp] theorem State.setScfLong_outcome (s : State) (gr ch : Fin 2) (b : Nat) (v : BitVec 4) : (s.setScfLong gr ch b v).outcome = s.outcome := rfl
@[simp] theorem State.setScfLong_ret (s : State) (gr ch : Fin 2) (b : Nat) (v : BitVec 4) : (s.setScfLong gr ch b v).ret = s.ret := rfl
@[simp] theorem State.setScfLong_free (s : State) (gr ch : Fin 2) (b : Nat) (v : BitVec 4) : (s.setScfLong gr ch b v).free = s.free := rfl

@[simp] theorem State.setScfShort_xr (s : State) (gr ch : Fin 2) (b win : Nat) (v : BitVec 4) : (s.setScfShort gr ch b win v).xr = s.xr := rfl
@[simp] theorem State.setScfShort_scfL (s : State) (gr ch : Fin 2) (b win : Nat) (v : BitVec 4) : (s.setScfShort gr ch b win v).scfL = s.scfL := rfl
@[simp] theorem State.setScfShort_scfS (s : State) (gr ch : Fin 2) (b win : Nat) (v : BitVec 4) : (s.setScfShort gr ch b win v).scfS = s.scfS.set gr ((s.scfS.get gr).set ch (((s.scfS.get gr).get ch).set (3 * b + win) v)) := rfl
@[simp] theorem State.setScfShort_seq (s : State) (gr ch : Fin 2) (b win : Nat) (v : BitVec 4) : (s.setScfShort gr ch b win v).seq = s.seq := rfl
@[simp] theorem State.setScfShort_bitpos (s : State) (gr ch : Fin 2) (b win : Nat) (v : BitVec 4) : (s.setScfShort gr ch b win v).bitpos = s.bitpos := rfl
@[simp] theorem State.setScfShort_status (s : State) (gr ch : Fin 2) (b win : Nat) (v : BitVec 4) : (s.setScfShort gr ch b win v).status = s.status := rfl
@[simp] theorem State.setScfShort_cause (s : State) (gr ch : Fin 2) (b win : Nat) (v : BitVec 4) : (s.setScfShort gr ch b win v).cause = s.cause := rfl
@[simp] theorem State.setScfShort_whr (s : State) (gr ch : Fin 2) (b win : Nat) (v : BitVec 4) : (s.setScfShort gr ch b win v).whr = s.whr := rfl
@[simp] theorem State.setScfShort_hdr (s : State) (gr ch : Fin 2) (b win : Nat) (v : BitVec 4) : (s.setScfShort gr ch b win v).hdr = s.hdr := rfl
@[simp] theorem State.setScfShort_si (s : State) (gr ch : Fin 2) (b win : Nat) (v : BitVec 4) : (s.setScfShort gr ch b win v).si = s.si := rfl
@[simp] theorem State.setScfShort_store (s : State) (gr ch : Fin 2) (b win : Nat) (v : BitVec 4) : (s.setScfShort gr ch b win v).store = s.store := rfl
@[simp] theorem State.setScfShort_vvec (s : State) (gr ch : Fin 2) (b win : Nat) (v : BitVec 4) : (s.setScfShort gr ch b win v).vvec = s.vvec := rfl
@[simp] theorem State.setScfShort_rsv (s : State) (gr ch : Fin 2) (b win : Nat) (v : BitVec 4) : (s.setScfShort gr ch b win v).rsv = s.rsv := rfl
@[simp] theorem State.setScfShort_md (s : State) (gr ch : Fin 2) (b win : Nat) (v : BitVec 4) : (s.setScfShort gr ch b win v).md = s.md := rfl
@[simp] theorem State.setScfShort_pcm (s : State) (gr ch : Fin 2) (b win : Nat) (v : BitVec 4) : (s.setScfShort gr ch b win v).pcm = s.pcm := rfl
@[simp] theorem State.setScfShort_port (s : State) (gr ch : Fin 2) (b win : Nat) (v : BitVec 4) : (s.setScfShort gr ch b win v).port = s.port := rfl
@[simp] theorem State.setScfShort_bench (s : State) (gr ch : Fin 2) (b win : Nat) (v : BitVec 4) : (s.setScfShort gr ch b win v).bench = s.bench := rfl
@[simp] theorem State.setScfShort_outcome (s : State) (gr ch : Fin 2) (b win : Nat) (v : BitVec 4) : (s.setScfShort gr ch b win v).outcome = s.outcome := rfl
@[simp] theorem State.setScfShort_ret (s : State) (gr ch : Fin 2) (b win : Nat) (v : BitVec 4) : (s.setScfShort gr ch b win v).ret = s.ret := rfl
@[simp] theorem State.setScfShort_free (s : State) (gr ch : Fin 2) (b win : Nat) (v : BitVec 4) : (s.setScfShort gr ch b win v).free = s.free := rfl

@[simp] theorem State.setStore_xr (s : State) (ch : Fin 2) (v : Lines) : (s.setStore ch v).xr = s.xr := rfl
@[simp] theorem State.setStore_scfL (s : State) (ch : Fin 2) (v : Lines) : (s.setStore ch v).scfL = s.scfL := rfl
@[simp] theorem State.setStore_scfS (s : State) (ch : Fin 2) (v : Lines) : (s.setStore ch v).scfS = s.scfS := rfl
@[simp] theorem State.setStore_seq (s : State) (ch : Fin 2) (v : Lines) : (s.setStore ch v).seq = s.seq := rfl
@[simp] theorem State.setStore_bitpos (s : State) (ch : Fin 2) (v : Lines) : (s.setStore ch v).bitpos = s.bitpos := rfl
@[simp] theorem State.setStore_status (s : State) (ch : Fin 2) (v : Lines) : (s.setStore ch v).status = s.status := rfl
@[simp] theorem State.setStore_cause (s : State) (ch : Fin 2) (v : Lines) : (s.setStore ch v).cause = s.cause := rfl
@[simp] theorem State.setStore_whr (s : State) (ch : Fin 2) (v : Lines) : (s.setStore ch v).whr = s.whr := rfl
@[simp] theorem State.setStore_hdr (s : State) (ch : Fin 2) (v : Lines) : (s.setStore ch v).hdr = s.hdr := rfl
@[simp] theorem State.setStore_si (s : State) (ch : Fin 2) (v : Lines) : (s.setStore ch v).si = s.si := rfl
@[simp] theorem State.setStore_store (s : State) (ch : Fin 2) (v : Lines) : (s.setStore ch v).store = s.store.set ch v := rfl
@[simp] theorem State.setStore_vvec (s : State) (ch : Fin 2) (v : Lines) : (s.setStore ch v).vvec = s.vvec := rfl
@[simp] theorem State.setStore_rsv (s : State) (ch : Fin 2) (v : Lines) : (s.setStore ch v).rsv = s.rsv := rfl
@[simp] theorem State.setStore_md (s : State) (ch : Fin 2) (v : Lines) : (s.setStore ch v).md = s.md := rfl
@[simp] theorem State.setStore_pcm (s : State) (ch : Fin 2) (v : Lines) : (s.setStore ch v).pcm = s.pcm := rfl
@[simp] theorem State.setStore_port (s : State) (ch : Fin 2) (v : Lines) : (s.setStore ch v).port = s.port := rfl
@[simp] theorem State.setStore_bench (s : State) (ch : Fin 2) (v : Lines) : (s.setStore ch v).bench = s.bench := rfl
@[simp] theorem State.setStore_outcome (s : State) (ch : Fin 2) (v : Lines) : (s.setStore ch v).outcome = s.outcome := rfl
@[simp] theorem State.setStore_ret (s : State) (ch : Fin 2) (v : Lines) : (s.setStore ch v).ret = s.ret := rfl
@[simp] theorem State.setStore_free (s : State) (ch : Fin 2) (v : Lines) : (s.setStore ch v).free = s.free := rfl

@[simp] theorem State.setHist_xr (s : State) (ch : Fin 2) (v : History) : (s.setHist ch v).xr = s.xr := rfl
@[simp] theorem State.setHist_scfL (s : State) (ch : Fin 2) (v : History) : (s.setHist ch v).scfL = s.scfL := rfl
@[simp] theorem State.setHist_scfS (s : State) (ch : Fin 2) (v : History) : (s.setHist ch v).scfS = s.scfS := rfl
@[simp] theorem State.setHist_seq (s : State) (ch : Fin 2) (v : History) : (s.setHist ch v).seq = s.seq := rfl
@[simp] theorem State.setHist_bitpos (s : State) (ch : Fin 2) (v : History) : (s.setHist ch v).bitpos = s.bitpos := rfl
@[simp] theorem State.setHist_status (s : State) (ch : Fin 2) (v : History) : (s.setHist ch v).status = s.status := rfl
@[simp] theorem State.setHist_cause (s : State) (ch : Fin 2) (v : History) : (s.setHist ch v).cause = s.cause := rfl
@[simp] theorem State.setHist_whr (s : State) (ch : Fin 2) (v : History) : (s.setHist ch v).whr = s.whr := rfl
@[simp] theorem State.setHist_hdr (s : State) (ch : Fin 2) (v : History) : (s.setHist ch v).hdr = s.hdr := rfl
@[simp] theorem State.setHist_si (s : State) (ch : Fin 2) (v : History) : (s.setHist ch v).si = s.si := rfl
@[simp] theorem State.setHist_store (s : State) (ch : Fin 2) (v : History) : (s.setHist ch v).store = s.store := rfl
@[simp] theorem State.setHist_vvec (s : State) (ch : Fin 2) (v : History) : (s.setHist ch v).vvec = s.vvec.set ch v := rfl
@[simp] theorem State.setHist_rsv (s : State) (ch : Fin 2) (v : History) : (s.setHist ch v).rsv = s.rsv := rfl
@[simp] theorem State.setHist_md (s : State) (ch : Fin 2) (v : History) : (s.setHist ch v).md = s.md := rfl
@[simp] theorem State.setHist_pcm (s : State) (ch : Fin 2) (v : History) : (s.setHist ch v).pcm = s.pcm := rfl
@[simp] theorem State.setHist_port (s : State) (ch : Fin 2) (v : History) : (s.setHist ch v).port = s.port := rfl
@[simp] theorem State.setHist_bench (s : State) (ch : Fin 2) (v : History) : (s.setHist ch v).bench = s.bench := rfl
@[simp] theorem State.setHist_outcome (s : State) (ch : Fin 2) (v : History) : (s.setHist ch v).outcome = s.outcome := rfl
@[simp] theorem State.setHist_ret (s : State) (ch : Fin 2) (v : History) : (s.setHist ch v).ret = s.ret := rfl
@[simp] theorem State.setHist_free (s : State) (ch : Fin 2) (v : History) : (s.setHist ch v).free = s.free := rfl

@[simp] theorem State.stage_xr (s : State) (op : Opid) (gr ch : Fin 2) : (s.stage op gr ch).xr = s.xr := rfl
@[simp] theorem State.stage_scfL (s : State) (op : Opid) (gr ch : Fin 2) : (s.stage op gr ch).scfL = s.scfL := rfl
@[simp] theorem State.stage_scfS (s : State) (op : Opid) (gr ch : Fin 2) : (s.stage op gr ch).scfS = s.scfS := rfl
@[simp] theorem State.stage_seq (s : State) (op : Opid) (gr ch : Fin 2) : (s.stage op gr ch).seq = ⟨op, gr, ch⟩ := rfl
@[simp] theorem State.stage_bitpos (s : State) (op : Opid) (gr ch : Fin 2) : (s.stage op gr ch).bitpos = s.bitpos := rfl
@[simp] theorem State.stage_status (s : State) (op : Opid) (gr ch : Fin 2) : (s.stage op gr ch).status = s.status := rfl
@[simp] theorem State.stage_cause (s : State) (op : Opid) (gr ch : Fin 2) : (s.stage op gr ch).cause = s.cause := rfl
@[simp] theorem State.stage_whr (s : State) (op : Opid) (gr ch : Fin 2) : (s.stage op gr ch).whr = s.whr := rfl
@[simp] theorem State.stage_hdr (s : State) (op : Opid) (gr ch : Fin 2) : (s.stage op gr ch).hdr = s.hdr := rfl
@[simp] theorem State.stage_si (s : State) (op : Opid) (gr ch : Fin 2) : (s.stage op gr ch).si = s.si := rfl
@[simp] theorem State.stage_store (s : State) (op : Opid) (gr ch : Fin 2) : (s.stage op gr ch).store = s.store := rfl
@[simp] theorem State.stage_vvec (s : State) (op : Opid) (gr ch : Fin 2) : (s.stage op gr ch).vvec = s.vvec := rfl
@[simp] theorem State.stage_rsv (s : State) (op : Opid) (gr ch : Fin 2) : (s.stage op gr ch).rsv = s.rsv := rfl
@[simp] theorem State.stage_md (s : State) (op : Opid) (gr ch : Fin 2) : (s.stage op gr ch).md = s.md := rfl
@[simp] theorem State.stage_pcm (s : State) (op : Opid) (gr ch : Fin 2) : (s.stage op gr ch).pcm = s.pcm := rfl
@[simp] theorem State.stage_port (s : State) (op : Opid) (gr ch : Fin 2) : (s.stage op gr ch).port = s.port := rfl
@[simp] theorem State.stage_bench (s : State) (op : Opid) (gr ch : Fin 2) : (s.stage op gr ch).bench = s.bench := rfl
@[simp] theorem State.stage_outcome (s : State) (op : Opid) (gr ch : Fin 2) : (s.stage op gr ch).outcome = s.outcome := rfl
@[simp] theorem State.stage_ret (s : State) (op : Opid) (gr ch : Fin 2) : (s.stage op gr ch).ret = s.ret := rfl
@[simp] theorem State.stage_free (s : State) (op : Opid) (gr ch : Fin 2) : (s.stage op gr ch).free = s.free := rfl

@[simp] theorem State.setBitpos_xr (s : State) (p : Nat) : (s.setBitpos p).xr = s.xr := rfl
@[simp] theorem State.setBitpos_scfL (s : State) (p : Nat) : (s.setBitpos p).scfL = s.scfL := rfl
@[simp] theorem State.setBitpos_scfS (s : State) (p : Nat) : (s.setBitpos p).scfS = s.scfS := rfl
@[simp] theorem State.setBitpos_seq (s : State) (p : Nat) : (s.setBitpos p).seq = s.seq := rfl
@[simp] theorem State.setBitpos_bitpos (s : State) (p : Nat) : (s.setBitpos p).bitpos = p := rfl
@[simp] theorem State.setBitpos_status (s : State) (p : Nat) : (s.setBitpos p).status = s.status := rfl
@[simp] theorem State.setBitpos_cause (s : State) (p : Nat) : (s.setBitpos p).cause = s.cause := rfl
@[simp] theorem State.setBitpos_whr (s : State) (p : Nat) : (s.setBitpos p).whr = s.whr := rfl
@[simp] theorem State.setBitpos_hdr (s : State) (p : Nat) : (s.setBitpos p).hdr = s.hdr := rfl
@[simp] theorem State.setBitpos_si (s : State) (p : Nat) : (s.setBitpos p).si = s.si := rfl
@[simp] theorem State.setBitpos_store (s : State) (p : Nat) : (s.setBitpos p).store = s.store := rfl
@[simp] theorem State.setBitpos_vvec (s : State) (p : Nat) : (s.setBitpos p).vvec = s.vvec := rfl
@[simp] theorem State.setBitpos_rsv (s : State) (p : Nat) : (s.setBitpos p).rsv = s.rsv := rfl
@[simp] theorem State.setBitpos_md (s : State) (p : Nat) : (s.setBitpos p).md = s.md := rfl
@[simp] theorem State.setBitpos_pcm (s : State) (p : Nat) : (s.setBitpos p).pcm = s.pcm := rfl
@[simp] theorem State.setBitpos_port (s : State) (p : Nat) : (s.setBitpos p).port = s.port := rfl
@[simp] theorem State.setBitpos_bench (s : State) (p : Nat) : (s.setBitpos p).bench = s.bench := rfl
@[simp] theorem State.setBitpos_outcome (s : State) (p : Nat) : (s.setBitpos p).outcome = s.outcome := rfl
@[simp] theorem State.setBitpos_ret (s : State) (p : Nat) : (s.setBitpos p).ret = s.ret := rfl
@[simp] theorem State.setBitpos_free (s : State) (p : Nat) : (s.setBitpos p).free = s.free := rfl

@[simp] theorem State.returns_xr (s : State) (r : Ret) : (s.returns r).xr = s.xr := rfl
@[simp] theorem State.returns_scfL (s : State) (r : Ret) : (s.returns r).scfL = s.scfL := rfl
@[simp] theorem State.returns_scfS (s : State) (r : Ret) : (s.returns r).scfS = s.scfS := rfl
@[simp] theorem State.returns_seq (s : State) (r : Ret) : (s.returns r).seq = s.seq := rfl
@[simp] theorem State.returns_bitpos (s : State) (r : Ret) : (s.returns r).bitpos = s.bitpos := rfl
@[simp] theorem State.returns_status (s : State) (r : Ret) : (s.returns r).status = s.status := rfl
@[simp] theorem State.returns_cause (s : State) (r : Ret) : (s.returns r).cause = s.cause := rfl
@[simp] theorem State.returns_whr (s : State) (r : Ret) : (s.returns r).whr = s.whr := rfl
@[simp] theorem State.returns_hdr (s : State) (r : Ret) : (s.returns r).hdr = s.hdr := rfl
@[simp] theorem State.returns_si (s : State) (r : Ret) : (s.returns r).si = s.si := rfl
@[simp] theorem State.returns_store (s : State) (r : Ret) : (s.returns r).store = s.store := rfl
@[simp] theorem State.returns_vvec (s : State) (r : Ret) : (s.returns r).vvec = s.vvec := rfl
@[simp] theorem State.returns_rsv (s : State) (r : Ret) : (s.returns r).rsv = s.rsv := rfl
@[simp] theorem State.returns_md (s : State) (r : Ret) : (s.returns r).md = s.md := rfl
@[simp] theorem State.returns_pcm (s : State) (r : Ret) : (s.returns r).pcm = s.pcm := rfl
@[simp] theorem State.returns_port (s : State) (r : Ret) : (s.returns r).port = s.port := rfl
@[simp] theorem State.returns_bench (s : State) (r : Ret) : (s.returns r).bench = s.bench := rfl
@[simp] theorem State.returns_outcome (s : State) (r : Ret) : (s.returns r).outcome = s.outcome := rfl
@[simp] theorem State.returns_ret (s : State) (r : Ret) : (s.returns r).ret = r := rfl
@[simp] theorem State.returns_free (s : State) (r : Ret) : (s.returns r).free = s.free := rfl

end Sys2Proof.Machine
end

