-- ==== Sys2Proof/Laws/Sequence.lean ====
section
/-! SUPPORT. Sequencing, what `exec` answers for an operation, and the one lemma that says what `GetBits` can do. -/

namespace Sys2Proof.Machine

@[simp] theorem andThen_ok {α β : Type} (a : α) (s : State) (k : α → State → Res β) :
    Res.andThen (.ok a s) k = k a s := rfl

@[simp] theorem andThen_raised {α β : Type} (c : Cause) (s : State) (k : α → State → Res β) :
    Res.andThen (.raised c s : Res α) k = .raised c s := rfl

theorem andThen_assoc {α β γ : Type} (r : Res α) (k : α → State → Res β) (l : β → State → Res γ) :
    (r.andThen k).andThen l = r.andThen fun a s => (k a s).andThen l := by
  cases r <;> rfl

/-- A sequence completes exactly where its parts do. -/
theorem andThen_eq_ok {α β : Type} {r : Res α} {k : α → State → Res β} {b : β} {t : State} :
    r.andThen k = .ok b t ↔ ∃ a u, r = .ok a u ∧ k a u = .ok b t := by
  cases r <;> simp

@[simp] theorem forEach_nil {ι : Type} (f : ι → State → Res Unit) (s : State) : forEach [] f s = .ok () s := rfl

@[simp] theorem forEach_cons {ι : Type} (x : ι) (xs : List ι) (f : ι → State → Res Unit) (s : State) :
    forEach (x :: xs) f s = (f x s).andThen fun _ t => forEach xs f t := rfl

theorem forEach_append {ι : Type} (xs ys : List ι) (f : ι → State → Res Unit) (s : State) :
    forEach (xs ++ ys) f s = (forEach xs f s).andThen fun _ t => forEach ys f t := by
  induction xs generalizing s with
  | nil => rfl
  | cons x xs ih => simp only [List.cons_append, forEach_cons, andThen_assoc, ih]

@[simp] theorem settle_ok {α : Type} (ops : List Byte) (fin : α → State → State) (a : α) (s : State) :
    settle ops fin (.ok a s) = .next (fin a s) := rfl

@[simp] theorem settle_raised {α : Type} (ops : List Byte) (fin : α → State → State) (c : Cause) (s : State) :
    settle ops fin (.raised c s) = .next (takeException c ops s) := rfl

@[simp] theorem run_ok (s : State) : run (.ok () s) = .next s := rfl

@[simp] theorem run_raised (c : Cause) (s : State) : run (.raised c s) = .next (takeException c [] s) := rfl

@[simp] theorem runRet_ok {α : Type} (w : α → Ret) (a : α) (s : State) : runRet w (.ok a s) = .next (s.returns (w a)) := rfl

@[simp] theorem runRet_raised {α : Type} (w : α → Ret) (c : Cause) (s : State) :
    runRet w (.raised c s) = .next (takeException c [] s) := rfl

/-- An operation always answers a next state. -/
theorem settle_next {α : Type} (ops : List Byte) (fin : α → State → State) (r : Res α) : ∃ t, settle ops fin r = .next t := by
  cases r with
  | ok a s => exact ⟨_, rfl⟩
  | raised c s => exact ⟨_, rfl⟩

/-! ### What holds of the state an operation ends in -/

/-- `P` holds of the state at the end, be it a completion or a raise; a raise has a cause. -/
def Res.Ends {α : Type} (P : State → Prop) : Res α → Prop
  | .ok _ t => P t
  | .raised c t => c ≠ .noCause ∧ P t

@[simp] theorem ends_ok {α : Type} {P : State → Prop} {a : α} {t : State} : Res.Ends P (.ok a t) ↔ P t := Iff.rfl

@[simp] theorem ends_raised {α : Type} {P : State → Prop} {c : Cause} {t : State} :
    Res.Ends P (.raised c t : Res α) ↔ c ≠ .noCause ∧ P t := Iff.rfl

theorem Res.Ends.andThen {α β : Type} {P : State → Prop} {r : Res α} {k : α → State → Res β} (h : r.Ends P)
    (hk : ∀ a t, P t → (k a t).Ends P) : (r.andThen k).Ends P := by
  cases r with
  | ok a t => exact hk a t h
  | raised c t => exact h

theorem Res.Ends.mono {α : Type} {P Q : State → Prop} {r : Res α} (h : r.Ends P) (hk : ∀ t, P t → Q t) : r.Ends Q := by
  cases r with
  | ok a t => exact hk t h
  | raised c t => exact ⟨h.1, hk t h.2⟩

theorem Res.Ends.forEach {ι : Type} {P : State → Prop} {xs : List ι} {f : ι → State → Res Unit} {s : State} (h : P s)
    (hf : ∀ x ∈ xs, ∀ t, P t → (f x t).Ends P) : (Machine.forEach xs f s).Ends P := by
  induction xs generalizing s with
  | nil => exact h
  | cons x xs ih =>
    rw [forEach_cons]
    exact (hf x (by simp) s h).andThen fun _ t ht => ih ht fun y hy => hf y (by simp [hy])

/-! ### The bit cursor -/

/-- `GetBits(n)` where the bits are there, or `n = 0`. -/
theorem getBits_ok {n : Nat} {s : State} (h : n = 0 ∨ s.bitpos + n ≤ 8 * s.md.length) :
    getBits n s = .ok (bitsAt s.md s.bitpos n) { s with bitpos := s.bitpos + n } := by
  unfold getBits getBitsWith
  split
  · subst_vars; rfl
  · rw [if_neg (by omega)]; rfl

/-- An over-read under the configured policy. -/
theorem getBits_overrun {n : Nat} {s : State} (h : ¬(n = 0 ∨ s.bitpos + n ≤ 8 * s.md.length)) :
    getBits n s = .raised .bitsOverrun s := by
  unfold getBits getBitsWith
  rw [if_neg (by omega), if_pos (by omega)]
  rfl

theorem bitsAt_lt (bs : List Byte) (p n : Nat) : bitsAt bs p n < 2 ^ n := by
  induction n with
  | zero => simp [bitsAt]
  | succ n ih =>
    have : (bitAt bs (p + n)).toNat ≤ 1 := Bool.toNat_le _
    simp only [bitsAt, Nat.pow_succ]
    omega

/-- Whatever `GetBits` does, it changes `BITPOS` alone. -/
theorem getBits_ends {P : State → Prop} {n : Nat} {s : State} (h : ∀ p, P { s with bitpos := p }) :
    (getBits n s).Ends P := by
  by_cases hb : n = 0 ∨ s.bitpos + n ≤ 8 * s.md.length
  · rw [getBits_ok hb]; exact h _
  · rw [getBits_overrun hb]; exact ⟨by decide, h s.bitpos⟩

/-- A codeword read changes `BITPOS` alone. -/
theorem readCodeword_ends {α : Type} {P : State → Prop} (b : Book α) (fuel : Nat) (w : List Bool) (s : State)
    (h : ∀ p, P { s with bitpos := p }) : (readCodeword b fuel w s).Ends P := by
  induction fuel generalizing w s with
  | zero => exact ⟨by decide, h s.bitpos⟩
  | succ n ih =>
    have hg : (getBits 1 s).Ends (fun t => ∀ p, P { t with bitpos := p }) := getBits_ends fun _ => h
    unfold readCodeword
    cases hr : getBits 1 s with
    | raised c t =>
      rw [hr] at hg
      exact ⟨hg.1, hg.2 t.bitpos⟩
    | ok v t =>
      rw [hr] at hg
      simp only [andThen_ok]
      split
      · exact hg t.bitpos
      · split
        · exact ih _ _ hg
        · exact ⟨by decide, hg t.bitpos⟩

theorem readBook_ends {α : Type} {P : State → Prop} (b : Book α) (s : State) (h : ∀ p, P { s with bitpos := p }) :
    (readBook b s).Ends P := readCodeword_ends b _ _ s h

end Sys2Proof.Machine
end

