-- ==== Sys2Proof/Laws/Huffman.lean ====
section
/-! SUPPORT. Reading a codeword of a prefix code: where the bits of a codeword stand at the cursor, its value is read and the cursor moves
past it. The codebooks are prefix codes. -/

namespace Sys2Proof.Machine

/-- The bits `w` stand in `MD` at the cursor. -/
def BitsAt (s : State) (w : List Bool) : Prop :=
  (w = [] ∨ s.bitpos + w.length ≤ 8 * s.md.length) ∧ ∀ k, k < w.length → bitAt s.md (s.bitpos + k) = w.getD k false

theorem BitsAt.nil (s : State) : BitsAt s [] := ⟨.inl rfl, fun _ h => absurd h (by simp)⟩

/-- Bits one after another: the first, and the second with the cursor past the first. -/
theorem BitsAt.append {s : State} {v w : List Bool} (h : BitsAt s (v ++ w)) :
    BitsAt s v ∧ BitsAt { s with bitpos := s.bitpos + v.length } w := by
  obtain ⟨h1, h2⟩ := h
  refine ⟨⟨?_, fun k hk => ?_⟩, ?_, fun k hk => ?_⟩
  · rcases h1 with h | h
    · exact .inl (List.append_eq_nil_iff.1 h).1
    · right; rw [List.length_append] at h; omega
  · rw [h2 k (by rw [List.length_append]; omega), List.getD_append _ _ _ _ hk]
  · rcases h1 with h | h
    · exact .inl (List.append_eq_nil_iff.1 h).2
    · right
      show s.bitpos + v.length + w.length ≤ 8 * s.md.length
      rw [List.length_append] at h; omega
  · show bitAt s.md (s.bitpos + v.length + k) = _
    rw [Nat.add_assoc, h2 _ (by rw [List.length_append]; omega), List.getD_append_right _ _ _ _ (by omega), Nat.add_sub_cancel_left]

/-- The number `n` bits at the cursor read as. -/
theorem bitsAt_of_BitsAt {s : State} {w : List Bool} (h : BitsAt s w) : bitsAt s.md s.bitpos w.length = bitsNat w := by
  have key : ∀ n, n ≤ w.length → bitsAt s.md s.bitpos n = bitsNat (w.take n) := by
    intro n hn
    induction n with
    | zero => rfl
    | succ n ih =>
      rw [bitsAt, ih (by omega), h.2 n (by omega), List.take_add_one, bitsNat, bitsNat, List.foldl_append,
        List.getElem?_eq_getElem (by omega), List.getD_eq_getElem _ _ (by omega)]
      rfl
  rw [key _ le_rfl, List.take_length]

/-- `GetBits` of bits that stand at the cursor. -/
theorem getBits_of_BitsAt {s : State} {w : List Bool} (h : BitsAt s w) :
    getBits w.length s = .ok (bitsNat w) { s with bitpos := s.bitpos + w.length } := by
  rw [getBits_ok (n := w.length), bitsAt_of_BitsAt h]
  exact h.1.imp (fun e => by rw [e]; rfl) id

/-- No codeword is a prefix of another (42_huffman R167). -/
def PrefixFree {α : Type} (b : Book α) : Prop := b.Pairwise fun e f => ¬e.1 <+: f.1 ∧ ¬f.1 <+: e.1

theorem PrefixFree.eq {α : Type} {b : Book α} (h : PrefixFree b) {e f : List Bool × α} (he : e ∈ b) (hf : f ∈ b) (hp : e.1 <+: f.1) :
    e = f := by
  induction b with
  | nil => exact absurd he (by simp)
  | cons g b ih =>
    obtain ⟨h1, h2⟩ := List.pairwise_cons.1 h
    rcases List.mem_cons.1 he with he' | he'
    · rcases List.mem_cons.1 hf with hf' | hf'
      · rw [he', hf']
      · subst he'; exact absurd hp (h1 f hf').1
    · rcases List.mem_cons.1 hf with hf' | hf'
      · subst hf'; exact absurd hp (h1 e he').2
      · exact ih h2 he' hf'

theorem Book.value_of_mem {α : Type} {b : Book α} (h : PrefixFree b) {w : List Bool} {a : α} (hm : (w, a) ∈ b) :
    b.value w = some a := by
  unfold Book.value
  cases hf : b.find? (fun e => e.1 == w) with
  | none => exact absurd (List.find?_eq_none.1 hf (w, a) hm) (by simp)
  | some e =>
    have h1 := List.find?_some hf
    have h2 := List.mem_of_find?_eq_some hf
    have h1 : e.1 = w := by simpa using h1
    rw [h.eq h2 hm (h1 ▸ List.prefix_rfl)]; rfl

theorem Book.value_of_prefix {α : Type} {b : Book α} (h : PrefixFree b) {v w : List Bool} {a : α} (hm : (w, a) ∈ b) (hp : v <+: w)
    (hne : v ≠ w) : b.value v = none := by
  unfold Book.value
  cases hf : b.find? (fun e => e.1 == v) with
  | none => rfl
  | some e =>
    have h1 := List.find?_some hf
    have h2 := List.mem_of_find?_eq_some hf
    have h1 : e.1 = v := by simpa using h1
    have := h.eq h2 hm (h1 ▸ hp)
    exact absurd (h1.symm.trans (congrArg (·.1) this)) hne

theorem Book.extends_of_prefix {α : Type} {b : Book α} {v w : List Bool} {a : α} (hm : (w, a) ∈ b) (hp : v <+: w) :
    b.extends v = true := List.any_eq_true.2 ⟨(w, a), hm, List.isPrefixOf_iff_prefix.2 hp⟩

theorem foldl_max_le (l : List Nat) (m : Nat) : m ≤ l.foldl max m ∧ ∀ x ∈ l, x ≤ l.foldl max m := by
  induction l generalizing m with
  | nil => simp
  | cons y l ih =>
    obtain ⟨h1, h2⟩ := ih (max m y)
    refine ⟨(le_max_left _ _).trans h1, fun x hx => ?_⟩
    rcases List.mem_cons.1 hx with rfl | hx
    · exact (le_max_right _ _).trans h1
    · exact h2 x hx

theorem Book.length_le_longest {α : Type} {b : Book α} {w : List Bool} {a : α} (hm : (w, a) ∈ b) : w.length ≤ b.longest :=
  (foldl_max_le _ 0).2 _ (List.mem_map.2 ⟨(w, a), hm, rfl⟩)

/-- From a proper prefix of a codeword whose other bits stand at the cursor. -/
theorem readCodeword_ok {α : Type} {b : Book α} (h : PrefixFree b) {a : α} (v u : List Bool) (fuel : Nat) (s : State)
    (hm : (v ++ u, a) ∈ b) (hu : u ≠ []) (hf : u.length ≤ fuel) (hb : BitsAt s u) :
    readCodeword b fuel v s = .ok a { s with bitpos := s.bitpos + u.length } := by
  induction fuel generalizing v u s with
  | zero => exact absurd (List.length_eq_zero_iff.1 (by omega)) hu
  | succ n ih =>
    cases u with
    | nil => exact absurd rfl hu
    | cons x u =>
      have hx : v ++ x :: u = (v ++ [x]) ++ u := by simp
      obtain ⟨h1, h2⟩ := BitsAt.append (v := [x]) (w := u) hb
      have hg : getBits 1 s = .ok x.toNat { s with bitpos := s.bitpos + 1 } := by
        have := getBits_of_BitsAt h1
        simpa [bitsNat] using this
      have hbit : (x.toNat == 1) = x := by cases x <;> rfl
      rw [readCodeword, hg]
      simp only [andThen_ok, hbit]
      rw [hx] at hm
      by_cases hue : u = []
      · subst hue
        rw [List.append_nil] at hm
        rw [Book.value_of_mem h hm]; rfl
      · rw [Book.value_of_prefix h hm (List.prefix_append _ _) (by simpa using hue)]
        simp only
        rw [Book.extends_of_prefix hm (List.prefix_append _ _), if_pos rfl, ih (v ++ [x]) u { s with bitpos := s.bitpos + 1 } hm hue (by simpa using hf) (by exact h2)]
        rw [List.length_cons, Nat.add_comm u.length, ← Nat.add_assoc]

/-- A codeword that stands at the cursor. -/
theorem readBook_ok {α : Type} {b : Book α} (h : PrefixFree b) {a : α} {w : List Bool} (hm : (w, a) ∈ b) (hw : w ≠ []) {s : State}
    (hb : BitsAt s w) : readBook b s = .ok a { s with bitpos := s.bitpos + w.length } :=
  readCodeword_ok h [] w _ s hm hw (Book.length_le_longest hm) hb

/-! ### The codebooks -/

theorem natBits_length (w v : Nat) : (natBits w v).length = w := by simp [natBits]

theorem bitsNat_natBits {w v : Nat} (h : v < 2 ^ w) : bitsNat (natBits w v) = v := by
  have key : ∀ n, n ≤ w → bitsNat ((natBits w v).take n) = v / 2 ^ (w - n) := by
    intro n hn
    induction n with
    | zero => rw [List.take_zero, Nat.sub_zero, Nat.div_eq_of_lt h]; rfl
    | succ n ih =>
      rw [List.take_add_one, List.getElem?_eq_getElem (by rw [natBits_length]; omega), bitsNat, List.foldl_append]
      rw [show List.foldl (fun a b => 2 * a + b.toNat) 0 ((natBits w v).take n) = v / 2 ^ (w - n) from ih (by omega)]
      have hb : (natBits w v)[n]'(by rw [natBits_length]; omega) = v.testBit (w - 1 - n) := by simp [natBits]
      rw [hb]
      show 2 * (v / 2 ^ (w - n)) + (v.testBit (w - 1 - n)).toNat = _
      rw [Nat.testBit_eq_decide_div_mod_eq, show w - (n + 1) = w - 1 - n by omega, show w - n = w - 1 - n + 1 by omega, Nat.pow_succ,
        ← Nat.div_div_eq_div_mul]
      generalize v / 2 ^ (w - 1 - n) = m
      by_cases hm : m % 2 = 1
      · simp [hm]; omega
      · simp [hm]; omega
  have := key w le_rfl
  rw [List.take_of_length_le (by rw [natBits_length]), Nat.sub_self] at this
  simpa using this

theorem prefixFree_of_legal {dim : Nat} {b : Book (Nat × Nat)} (h : legalPairBook dim b = true) : PrefixFree b := by
  simp only [legalPairBook, Bool.and_eq_true, decide_eq_true_eq] at h
  refine h.1.1.imp fun hp => ⟨fun k => ?_, fun k => ?_⟩
  · rw [List.isPrefixOf_iff_prefix.2 k] at hp; exact absurd hp.1 (by simp)
  · rw [List.isPrefixOf_iff_prefix.2 k] at hp; exact absurd hp.2.1 (by simp)

theorem legal_nonempty {dim : Nat} {b : Book (Nat × Nat)} (h : legalPairBook dim b = true) {e : List Bool × (Nat × Nat)} (he : e ∈ b) :
    e.1 ≠ [] ∧ e.2.1 < dim ∧ e.2.2 < dim := by
  simp only [legalPairBook, Bool.and_eq_true, decide_eq_true_eq] at h
  have := List.all_eq_true.1 h.1.2 e he
  simp only [Bool.and_eq_true, decide_eq_true_eq, Bool.not_eq_true', List.isEmpty_eq_false_iff] at this
  exact ⟨this.1.1, this.1.2, this.2⟩

/-- Every pair below `dim` has a codeword (42_huffman R167). -/
theorem legal_complete {dim : Nat} {b : Book (Nat × Nat)} (h : legalPairBook dim b = true) {v : Nat × Nat} (h1 : v.1 < dim)
    (h2 : v.2 < dim) : ∃ w, (w, v) ∈ b := by
  have hin := fun e he => (legal_nonempty h (e := e) he).2
  simp only [legalPairBook, Bool.and_eq_true, decide_eq_true_eq, beq_iff_eq] at h
  have hnd : (b.map (·.2)).Nodup := List.pairwise_map.2 (h.1.1.imp fun hp => hp.2.2)
  have hsub : (b.map (·.2)).toFinset ⊆ Finset.range dim ×ˢ Finset.range dim := by
    intro x hx
    obtain ⟨e, he, rfl⟩ := List.mem_map.1 (List.mem_toFinset.1 hx)
    exact Finset.mem_product.2 ⟨Finset.mem_range.2 (hin e he).1, Finset.mem_range.2 (hin e he).2⟩
  have hcard : (Finset.range dim ×ˢ Finset.range dim).card ≤ (b.map (·.2)).toFinset.card := by
    rw [List.toFinset_card_of_nodup hnd, List.length_map, h.2, Finset.card_product, Finset.card_range]
  have heq := Finset.eq_of_subset_of_card_le hsub hcard
  have : v ∈ (b.map (·.2)).toFinset := heq ▸ Finset.mem_product.2 ⟨Finset.mem_range.2 h1, Finset.mem_range.2 h2⟩
  obtain ⟨e, he, hv⟩ := List.mem_map.1 (List.mem_toFinset.1 this)
  exact ⟨e.1, hv ▸ he⟩

theorem codeword_mem {α : Type} [DecidableEq α] {b : Book α} {v : α} (h : ∃ w, (w, v) ∈ b) : (b.codeword v, v) ∈ b := by
  obtain ⟨w, hw⟩ := h
  unfold Book.codeword
  cases hf : b.find? (fun e => decide (e.2 = v)) with
  | none => exact absurd (List.find?_eq_none.1 hf (w, v) hw) (by simp)
  | some e =>
    have h1 : e.2 = v := by simpa using List.find?_some hf
    have h2 := List.mem_of_find?_eq_some hf
    rw [← h1]; exact h2

theorem natBits_injective {w u v : Nat} (hu : u < 2 ^ w) (hv : v < 2 ^ w) (h : natBits w u = natBits w v) : u = v := by
  rw [← bitsNat_natBits hu, h, bitsNat_natBits hv]

theorem plainPairBook_legal {d : Nat} (h0 : 0 < d) (hd : d ≤ 16) : legalPairBook d (plainPairBook d) = true := by
  have hdd : d * d ≤ 2 ^ 8 := (Nat.mul_le_mul hd hd).trans (by decide)
  have hne : ∀ {u v : Nat}, u < d * d → v < d * d → u ≠ v → (natBits 8 u).isPrefixOf (natBits 8 v) = false := by
    intro u v hu hv huv
    rw [Bool.eq_false_iff, Ne, List.isPrefixOf_iff_prefix]
    intro hp
    exact huv (natBits_injective (by omega) (by omega) (hp.eq_of_length (by rw [natBits_length, natBits_length])))
  simp only [legalPairBook, Bool.and_eq_true, decide_eq_true_eq, beq_iff_eq, List.all_eq_true, Bool.not_eq_true',
    List.isEmpty_eq_false_iff, plainPairBook]
  refine ⟨⟨?_, ?_⟩, by simp⟩
  · refine decide_eq_true (List.pairwise_map.2 (List.pairwise_iff_getElem.2 fun i j hi hj hij => ?_))
    simp only [List.getElem_range]
    simp only [List.length_range] at hi hj
    refine ⟨hne hi hj (by omega), hne hj hi (by omega), fun k => ?_⟩
    have e1 : i / d = j / d := congrArg (·.1) k
    have e2 : i % d = j % d := congrArg (·.2) k
    have := Nat.div_add_mod i d
    rw [e1, e2, Nat.div_add_mod] at this
    omega
  · intro e he
    obtain ⟨v, hv, rfl⟩ := List.mem_map.1 he
    have hv := List.mem_range.1 hv
    exact ⟨⟨fun k => by simpa [natBits] using congrArg List.length k, Nat.div_lt_of_lt_mul hv⟩, Nat.mod_lt _ h0⟩

theorem pairDim_bounds : ∀ t : Nat, t < 32 → t ≠ 0 → reservedTable t = false → 0 < pairDim t ∧ pairDim t ≤ 16 := by decide

/-- Whatever the OPEN codebooks are, `HUFF_PAIR[t]` has the shape of 42_huffman R167. -/
theorem pairBook_legal {t : Nat} (h : t < 32) (h0 : t ≠ 0) (hr : reservedTable t = false) : legalPairBook (pairDim t) (pairBook t) = true := by
  unfold pairBook
  split
  · subst_vars; decide
  · split
    · assumption
    · exact plainPairBook_legal (pairDim_bounds t h h0 hr).1 (pairDim_bounds t h h0 hr).2

/-- A pair below `dim(t)` that stands at the cursor. -/
theorem readBook_pair {t : Nat} (h : t < 32) (h0 : t ≠ 0) (hr : reservedTable t = false) {v : Nat × Nat} (h1 : v.1 < pairDim t)
    (h2 : v.2 < pairDim t) {s : State} (hb : BitsAt s ((pairBook t).codeword v)) :
    readBook (pairBook t) s = .ok v { s with bitpos := s.bitpos + ((pairBook t).codeword v).length } := by
  have hl := pairBook_legal h h0 hr
  have hm := codeword_mem (legal_complete hl h1 h2)
  exact readBook_ok (prefixFree_of_legal hl) hm (legal_nonempty hl hm).1 hb

theorem quadBook_ok : ∀ q : Bool, ((quadBook q).Pairwise fun e f => e.1.isPrefixOf f.1 = false ∧ f.1.isPrefixOf e.1 = false) ∧
    ∀ v : BitVec 4, ((quadBook q).codeword v, v) ∈ quadBook q ∧ (quadBook q).codeword v ≠ [] := by decide +kernel

theorem quadBook_prefixFree (q : Bool) : PrefixFree (quadBook q) :=
  (quadBook_ok q).1.imp fun hp => ⟨fun k => by rw [List.isPrefixOf_iff_prefix.2 k] at hp; exact absurd hp.1 (by simp),
    fun k => by rw [List.isPrefixOf_iff_prefix.2 k] at hp; exact absurd hp.2 (by simp)⟩

/-- A quadruple's codeword that stands at the cursor. -/
theorem readBook_quad (q : Bool) (v : BitVec 4) {s : State} (hb : BitsAt s ((quadBook q).codeword v)) :
    readBook (quadBook q) s = .ok v { s with bitpos := s.bitpos + ((quadBook q).codeword v).length } :=
  readBook_ok (quadBook_prefixFree q) ((quadBook_ok q).2 v).1 ((quadBook_ok q).2 v).2 hb

/-! ### Escapes and signs -/

/-- An element's escape bits that stand at the cursor. -/
theorem readEscape_ok {t x0 lin : Nat} (h : if 0 < linbits t ∧ x0 = 15 then lin < 2 ^ linbits t else lin = 0) {s : State}
    (hb : BitsAt s (escapeBits t x0 lin)) :
    readEscape t x0 s = .ok (pairMagnitude t x0 lin) { s with bitpos := s.bitpos + (escapeBits t x0 lin).length } := by
  unfold readEscape escapeBits pairMagnitude at *
  split
  · rename_i hc
    rw [if_pos hc] at h hb
    have := getBits_of_BitsAt hb
    rw [natBits_length, bitsNat_natBits h] at this
    rw [this, andThen_ok, hc.2, natBits_length]
  · rfl

/-- An element's sign bit that stands at the cursor. -/
theorem readSign_ok {mag : Nat} {neg : Bool} (h : neg = true → 0 < mag) {s : State} (hb : BitsAt s (signBits mag neg)) :
    readSign mag s = .ok (signed mag neg) { s with bitpos := s.bitpos + (signBits mag neg).length } := by
  unfold readSign signBits at *
  split
  · rename_i hm
    rw [if_pos hm] at hb
    have hg := getBits_of_BitsAt hb
    rw [show [neg].length = 1 from rfl] at hg
    rw [hg, andThen_ok]
    cases neg <;> rfl
  · obtain rfl : mag = 0 := by omega
    cases neg
    · rfl
    · exact absurd (h rfl) (by omega)

end Sys2Proof.Machine
end

