-- ==== Sys2Proof/Laws/Decode.lean ====
section
/-! SUPPORT. Reading back what the encoder writes: bits packed into bytes, the fields of the side-information layouts, and each reader of
the port's bytes on the bytes of its value, whatever follows. -/

namespace Sys2Proof

open Machine

/-! ### Bits and bytes -/

theorem byte_bits (v : BitVec 8) : (List.range 8).map (fun i => v.getMsbD i) = natBits 8 v.toNat := by
  revert v; decide +kernel

theorem natBits_of_bits : ∀ a b c d e f g h : Bool, natBits 8 (BitVec.ofNat 8 (bitsNat [a,b,c,d,e,f,g,h])).toNat = [a,b,c,d,e,f,g,h] := by decide +kernel

theorem bitsOf_packed (a b c d e f g h : Bool) (t : List Byte) :
    bitsOf (BitVec.ofNat 8 (bitsNat [a,b,c,d,e,f,g,h]) :: t) = [a,b,c,d,e,f,g,h] ++ bitsOf t := by
  rw [bitsOf, byte_bits, natBits_of_bits]

theorem bitsOf_append (a b : List Byte) : bitsOf (a ++ b) = bitsOf a ++ bitsOf b := by
  induction a with
  | nil => rfl
  | cons x a ih => rw [List.cons_append, bitsOf, bitsOf, ih, List.append_assoc]

/-- The bits of packed bits are those bits and a fill of zeros; their bytes are as many as needed. -/
theorem packBits_spec (bs : List Bool) :
    bitsOf (packBits bs) = bs ++ List.replicate ((8 - bs.length % 8) % 8) false ∧ (packBits bs).length = (bs.length + 7) / 8 := by
  match bs with
  | a :: b :: c :: d :: e :: f :: g :: h :: rest =>
    obtain ⟨i1, i2⟩ := packBits_spec rest
    rw [packBits]
    refine ⟨?_, ?_⟩
    · rw [bitsOf_packed, i1]
      simp only [List.length_cons, List.cons_append, List.nil_append]
      congr 10
      omega
    · rw [List.length_cons, i2]; simp only [List.length_cons]; omega
  | [] => exact ⟨rfl, rfl⟩
  | [a] => exact ⟨by revert a; decide, by revert a; decide⟩
  | [a, b] => exact ⟨by revert a b; decide, by revert a b; decide⟩
  | [a, b, c] => exact ⟨by revert a b c; decide, by revert a b c; decide⟩
  | [a, b, c, d] => exact ⟨by revert a b c d; decide, by revert a b c d; decide⟩
  | [a, b, c, d, e] => exact ⟨by revert a b c d e; decide +kernel, by revert a b c d e; decide⟩
  | [a, b, c, d, e, f] => exact ⟨by revert a b c d e f; decide +kernel, by revert a b c d e f; decide⟩
  | [a, b, c, d, e, f, g] => exact ⟨by revert a b c d e f g; decide +kernel, by revert a b c d e f g; decide⟩

theorem wordBits_length {w} (v : BitVec w) : (wordBits v).length = w := natBits_length _ _

theorem takeWord_wordBits {w} (v : BitVec w) (r : List Bool) : takeWord w (wordBits v ++ r) = some (v, r) := by
  have hl := wordBits_length v
  unfold takeWord
  rw [if_pos (by rw [List.length_append, hl]; omega), List.take_left' hl, List.drop_left' hl, wordBits, bitsNat_natBits v.isLt]
  simp

theorem takeFlag_cons (b : Bool) (r : List Bool) : takeFlag (b :: r) = some (b, r) := rfl

theorem BlockType.ofBits_toBits (b : BlockType) : BlockType.ofBits b.toBits = b := by cases b <;> rfl

theorem ChannelMode.ofBits_toBits (b : ChannelMode) : ChannelMode.ofBits b.toBits = b := by cases b <;> rfl

/-! ### The layouts -/

theorem takeGroupHead_bits (h : GroupHead) (r) : takeGroupHead (groupHeadBits h ++ r) = some (h, r) := by
  simp only [takeGroupHead, groupHeadBits, List.append_assoc, takeWord_wordBits, Option.bind_eq_bind, Option.bind_some]; rfl

theorem takeSwitchOn_bits (h : SwitchOn) (r) : takeSwitchOn (switchOnBits h ++ r) = some (h, r) := by
  simp only [takeSwitchOn, switchOnBits, List.append_assoc, List.cons_append, List.nil_append, takeWord_wordBits, Option.bind_eq_bind, Option.bind_some,
    takeFlag_cons, BlockType.ofBits_toBits]; rfl

theorem takeSwitchOff_bits (h : SwitchOff) (r) : takeSwitchOff (switchOffBits h ++ r) = some (h, r) := by
  simp only [takeSwitchOff, switchOffBits, List.append_assoc, takeWord_wordBits, Option.bind_eq_bind, Option.bind_some]; rfl

theorem takeGroupTail_bits (h : GroupTail) (r) : takeGroupTail (groupTailBits h ++ r) = some (h, r) := rfl

/-! ### The readers -/

theorem Reader.andThen_ok {α β} {p : Reader α} {k : α → Reader β} {bs a rest} (h : p bs = .ok (a, rest)) :
    (p.andThen k) bs = k a rest := by
  unfold Reader.andThen; rw [h]

theorem Reader.map_ok {α β} {p : Reader α} {f : α → β} {bs a rest} (h : p bs = .ok (a, rest)) :
    (p.map f) bs = .ok (f a, rest) := by
  rw [Reader.map, Reader.andThen_ok h]; rfl

theorem readByte_cons (b r) : readByte (b :: r) = .ok (b, r) := rfl

theorem toNat_byte {v} (h : v < 256) : (BitVec.ofNat 8 v).toNat = v := by rw [BitVec.toNat_ofNat]; omega

theorem readNum_numBytes (n v r) (h : v < 256 ^ n) : readNum n (numBytes n v ++ r) = .ok (v, r) := by
  -- generalize: reads v mod 256^n
  have key : ∀ n v, readNum n (numBytes n v ++ r) = .ok (v % 256 ^ n, r) := by
    intro n
    induction n with
    | zero => intro v; simp [readNum, numBytes, Reader.ret, Nat.mod_one]
    | succ n ih =>
      intro v
      rw [readNum, numBytes, List.cons_append, Reader.andThen_ok (readByte_cons _ _), Reader.map_ok (ih v)]
      have e : (BitVec.ofNat 8 (v / 256 ^ n)).toNat = v / 256 ^ n % 256 := BitVec.toNat_ofNat _ _
      rw [e, show 256 ^ (n + 1) = 256 ^ n * 256 from rfl, Nat.mod_mul (x := v), Nat.mul_comm (256 ^ n), Nat.add_comm]
  rw [key, Nat.mod_eq_of_lt h]

theorem readBytes_append (l r : List Byte) (k) (h : l.length = k) : readBytes k (l ++ r) = .ok (l, r) := by
  unfold readBytes
  rw [if_pos (by rw [List.length_append]; omega), List.take_left' h, List.drop_left' h]

theorem readFin_byte {n} (hn : n ≤ 256) (x : Fin n) (r) : readFin n (BitVec.ofNat 8 x.val :: r) = .ok (x, r) := by
  rw [readFin, Reader.andThen_ok (readByte_cons _ _)]
  have : (BitVec.ofNat 8 x.val).toNat = x.val := toNat_byte (by omega)
  simp only [this, x.isLt, dif_pos]; rfl

theorem readGrCh_byte (gr ch : Fin 2) (r) : readGrCh (grChByte gr ch :: r) = .ok ((gr, ch), r) := by
  rw [readGrCh, Reader.andThen_ok (readByte_cons _ _)]
  have : ∀ gr ch : Fin 2, (grChByte gr ch).toNat < 4 ∧ (if (grChByte gr ch).getLsbD 1 then (1 : Fin 2) else 0, if (grChByte gr ch).getLsbD 0 then (1 : Fin 2) else 0) = (gr, ch) := by decide +kernel
  rw [if_pos (this gr ch).1, (this gr ch).2]; rfl

theorem readFlag_byte (b : Bool) (r) : readFlag (flagByte b :: r) = .ok (b, r) := by
  cases b <;> rfl

theorem readF32_bytes (x : F32) (r) : readF32 (f32Bytes x ++ r) = .ok (x, r) := by
  rw [readF32, f32Bytes, Reader.map_ok (readNum_numBytes 4 x.toNat r (by have := x.isLt; omega))]; simp

theorem readF32s_bytes (l : List F32) (n) (h : l.length = n) (r) : readF32s n (l.flatMap f32Bytes ++ r) = .ok (l, r) := by
  induction l generalizing n with
  | nil => subst h; rfl
  | cons x l ih =>
    subst h
    rw [List.length_cons, readF32s, List.flatMap_cons, List.append_assoc, Reader.andThen_ok (readF32_bytes _ _), Reader.map_ok (ih _ rfl)]

theorem readBank_bytes {n} (x : Bank F32 n) (r) : readBank n (bankBytes x ++ r) = .ok (x, r) := by
  rw [readBank, bankBytes, Reader.map_ok (readF32s_bytes x.cells n x.len r)]
  have : (Bank.tab n fun i => x.cells.getD i 0#32) = x := Bank.tab_get x 0#32
  rw [this]

theorem readBlock_bytes (l : List Byte) (h : l.length < 65536) (r) : readBlock (blockBytes l ++ r) = .ok (l, r) := by
  rw [readBlock, blockBytes, List.append_assoc, Reader.andThen_ok (readNum_numBytes 2 _ _ (by omega)), readBytes_append l r _ rfl]

/-- Bits in a field of `k` bytes. -/
theorem bitField_spec (k : Nat) (bs : List Bool) (h : bs.length ≤ 8 * k) :
    bitsOf (bitField k bs) = bs ++ List.replicate (8 * k - bs.length) false ∧ (bitField k bs).length = k := by
  obtain ⟨h1, h2⟩ := packBits_spec (bs ++ List.replicate (8 * k - bs.length) false)
  have hl : (bs ++ List.replicate (8 * k - bs.length) false).length = 8 * k := by rw [List.length_append, List.length_replicate]; omega
  rw [hl] at h1 h2
  refine ⟨?_, by rw [bitField, h2]; omega⟩
  rw [bitField, h1, show (8 - 8 * k % 8) % 8 = 0 by omega, List.replicate_zero, List.append_nil]

/-- A bit layout read back from its field of `k` bytes. -/
theorem readBits_bitField {α} (k : Nat) (p : List Bool → Option (α × List Bool)) (bs : List Bool) (a : α) (h : bs.length ≤ 8 * k) (hp : ∀ r, p (bs ++ r) = some (a, r)) (r) :
    readBits k p (bitField k bs ++ r) = .ok (a, r) := by
  obtain ⟨h1, h2⟩ := bitField_spec k bs h
  rw [readBits, Reader.andThen_ok (readBytes_append _ _ _ h2)]
  simp only [h1, hp]
  rw [if_pos (by simp)]; rfl

theorem opByte_ne (o : Opid) : opByte o ≠ 0xFF#8 := by cases o <;> decide

/-- A first byte other than 0xFF is an OPID or context byte. -/
theorem decode_of_ne (b : Byte) (r : List Byte) (h : b ≠ 0xFF#8) : decode (b :: r) = readOperands b r := by
  unfold decode
  dsimp only
  rw [if_neg]
  cases r with
  | nil => simp [isHeader]
  | cons c r => simp [isHeader, h]

end Sys2Proof
end

