-- ==== Sys2Proof/Laws/Dispatch.lean ====
section
/-! SUPPORT. What `exec` calls for each instruction, one lemma an arm, so that no proof unfolds the whole match. -/

namespace Sys2Proof.Machine

theorem exec_idle {s : State} : exec .idle s = execIdle s := rfl
theorem exec_reset {s : State} : exec .reset s = execReset s := rfl
theorem exec_frame {r} {s : State} : exec (.frame r) s = execFrame r s := rfl
theorem exec_loadsi {image} {s : State} : exec (.loadsi image) s = execLoadsi image s := rfl
theorem exec_bcRead {n} {s : State} : exec (.bcRead n) s = execBcRead n s := rfl
theorem exec_bcPos {s : State} : exec .bcPos s = execBcPos s := rfl
theorem exec_bcSetpos {pos} {s : State} : exec (.bcSetpos pos) s = execBcSetpos pos s := rfl
theorem exec_rsvCheck {s : State} : exec .rsvCheck s = execRsvCheck s := rfl
theorem exec_rsvRecv {main} {s : State} : exec (.rsvRecv main) s = execRsvRecv main s := rfl
theorem exec_rsvAppend {main} {s : State} : exec (.rsvAppend main) s = execRsvAppend main s := rfl
theorem exec_rsvSplice {main} {s : State} : exec (.rsvSplice main) s = execRsvSplice main s := rfl
theorem exec_scfClear {s : State} : exec .scfClear s = execScfClear s := rfl
theorem exec_scfM1 {gr ch} {s : State} : exec (.scfM1 gr ch) s = execScfM1 gr ch s := rfl
theorem exec_scfM2 {ch} {s : State} : exec (.scfM2 ch) s = execScfM2 ch s := rfl
theorem exec_hufGranule {gr ch part2Start} {s : State} : exec (.hufGranule gr ch part2Start) s = execHufGranule gr ch part2Start s := rfl
theorem exec_hufBig {gr ch} {s : State} : exec (.hufBig gr ch) s = execHufBig gr ch s := rfl
theorem exec_hufCnt1 {gr ch part2Start} {s : State} : exec (.hufCnt1 gr ch part2Start) s = execHufCnt1 gr ch part2Start s := rfl
theorem exec_hufPair {t} {s : State} : exec (.hufPair t) s = execHufPair t s := rfl
theorem exec_hufQuad {q} {s : State} : exec (.hufQuad q) s = execHufQuad q s := rfl
theorem exec_req {gr ch} {s : State} : exec (.req gr ch) s = execReq gr ch s := rfl
theorem exec_reord {gr ch} {s : State} : exec (.reord gr ch) s = execReord gr ch s := rfl
theorem exec_stereo {gr} {s : State} : exec (.stereo gr) s = execStereo gr s := rfl
theorem exec_antialias {gr ch} {s : State} : exec (.antialias gr ch) s = execAlias gr ch s := rfl
theorem exec_hyb {gr ch} {s : State} : exec (.hyb gr ch) s = execHyb gr ch s := rfl
theorem exec_finv {gr ch} {s : State} : exec (.finv gr ch) s = execFinv gr ch s := rfl
theorem exec_synth {gr ch} {s : State} : exec (.synth gr ch) s = execSynth gr ch s := rfl
theorem exec_pcmPack {gr ss i ch x} {s : State} : exec (.pcmPack gr ss i ch x) s = execPcmPack gr ss i ch x s := rfl
theorem exec_reqL {gr ch q sfb} {s : State} : exec (.reqL gr ch q sfb) s = execReqL gr ch q sfb s := rfl
theorem exec_reqS {gr ch q sfb win} {s : State} : exec (.reqS gr ch q sfb win) s = execReqS gr ch q sfb win s := rfl
theorem exec_stMs {a b} {s : State} : exec (.stMs a b) s = execStMs a b s := rfl
theorem exec_stIs {m p} {s : State} : exec (.stIs m p) s = execStIs m p s := rfl
theorem exec_imdctL {x bt} {s : State} : exec (.imdctL x bt) s = execImdctL x bt s := rfl
theorem exec_imdctS {x} {s : State} : exec (.imdctS x) s = execImdctS x s := rfl
theorem exec_ola {gr ch sb raw} {s : State} : exec (.ola gr ch sb raw) s = execOla gr ch sb raw s := rfl
theorem exec_pcmConvert {x} {s : State} : exec (.pcmConvert x) s = execPcmConvert x s := rfl
theorem exec_prime {k frames} {s : State} : exec (.prime k frames) s = execPrime k frames s := rfl
theorem exec_getBits {n} {s : State} : exec (.getBits n) s = execGetBits n s := rfl
theorem exec_siGroupM1Ws1 {gr ch h sfc w preflag t} {s : State} : exec (.siGroupM1Ws1 gr ch h sfc w preflag t) s = execSiGroupM1Ws1 gr ch h sfc w preflag t s := rfl
theorem exec_siGroupM1Ws0 {gr ch h sfc w preflag t} {s : State} : exec (.siGroupM1Ws0 gr ch h sfc w preflag t) s = execSiGroupM1Ws0 gr ch h sfc w preflag t s := rfl
theorem exec_siGroupLsfWs1 {ch h sfc w t} {s : State} : exec (.siGroupLsfWs1 ch h sfc w t) s = execSiGroupLsfWs1 ch h sfc w t s := rfl
theorem exec_siGroupLsfWs0 {ch h sfc w t} {s : State} : exec (.siGroupLsfWs0 ch h sfc w t) s = execSiGroupLsfWs0 ch h sfc w t s := rfl
theorem exec_siHeadM1Mono {mdb priv scfsi0} {s : State} : exec (.siHeadM1Mono mdb priv scfsi0) s = execSiHeadM1Mono mdb priv scfsi0 s := rfl
theorem exec_siHeadM1Stereo {mdb priv scfsi0 scfsi1} {s : State} : exec (.siHeadM1Stereo mdb priv scfsi0 scfsi1) s = execSiHeadM1Stereo mdb priv scfsi0 scfsi1 s := rfl
theorem exec_siHeadLsfMono {mdb priv} {s : State} : exec (.siHeadLsfMono mdb priv) s = execSiHeadLsfMono mdb priv s := rfl
theorem exec_siHeadLsfStereo {mdb priv} {s : State} : exec (.siHeadLsfStereo mdb priv) s = execSiHeadLsfStereo mdb priv s := rfl
theorem exec_header {h} {s : State} : exec (.header h) s = execHeader h s := rfl
theorem exec_pairItem {t x0 y0 linX linY negX negY} {s : State} : exec (.pairItem t x0 y0 linX linY negX negY) s = execPairItem t x0 y0 linX linY negX negY s := rfl
theorem exec_quadItem {q value neg} {s : State} : exec (.quadItem q value neg) s = execQuadItem q value neg s := rfl
theorem exec_scfFieldM1 {gr ch second} {s : State} : exec (.scfFieldM1 gr ch second) s = execScfFieldM1 gr ch second s := rfl
theorem exec_scfFieldM2 {ch part} {s : State} : exec (.scfFieldM2 ch part) s = execScfFieldM2 ch part s := rfl
theorem exec_quadA0000 {s : State} : exec .quadA0000 s = execQuadA0000 s := rfl
theorem exec_quadA0001 {neg} {s : State} : exec (.quadA0001 neg) s = execQuadA0001 neg s := rfl
theorem exec_quadA0010 {neg} {s : State} : exec (.quadA0010 neg) s = execQuadA0010 neg s := rfl
theorem exec_quadA0011 {neg} {s : State} : exec (.quadA0011 neg) s = execQuadA0011 neg s := rfl
theorem exec_quadA0100 {neg} {s : State} : exec (.quadA0100 neg) s = execQuadA0100 neg s := rfl
theorem exec_quadA0101 {neg} {s : State} : exec (.quadA0101 neg) s = execQuadA0101 neg s := rfl
theorem exec_quadA0110 {neg} {s : State} : exec (.quadA0110 neg) s = execQuadA0110 neg s := rfl
theorem exec_quadA0111 {neg} {s : State} : exec (.quadA0111 neg) s = execQuadA0111 neg s := rfl
theorem exec_quadA1000 {neg} {s : State} : exec (.quadA1000 neg) s = execQuadA1000 neg s := rfl
theorem exec_quadA1001 {neg} {s : State} : exec (.quadA1001 neg) s = execQuadA1001 neg s := rfl
theorem exec_quadA1010 {neg} {s : State} : exec (.quadA1010 neg) s = execQuadA1010 neg s := rfl
theorem exec_quadA1011 {neg} {s : State} : exec (.quadA1011 neg) s = execQuadA1011 neg s := rfl
theorem exec_quadA1100 {neg} {s : State} : exec (.quadA1100 neg) s = execQuadA1100 neg s := rfl
theorem exec_quadA1101 {neg} {s : State} : exec (.quadA1101 neg) s = execQuadA1101 neg s := rfl
theorem exec_quadA1110 {neg} {s : State} : exec (.quadA1110 neg) s = execQuadA1110 neg s := rfl
theorem exec_quadA1111 {neg} {s : State} : exec (.quadA1111 neg) s = execQuadA1111 neg s := rfl
theorem exec_quadB0000 {s : State} : exec .quadB0000 s = execQuadB0000 s := rfl
theorem exec_quadB0001 {neg} {s : State} : exec (.quadB0001 neg) s = execQuadB0001 neg s := rfl
theorem exec_quadB0010 {neg} {s : State} : exec (.quadB0010 neg) s = execQuadB0010 neg s := rfl
theorem exec_quadB0011 {neg} {s : State} : exec (.quadB0011 neg) s = execQuadB0011 neg s := rfl
theorem exec_quadB0100 {neg} {s : State} : exec (.quadB0100 neg) s = execQuadB0100 neg s := rfl
theorem exec_quadB0101 {neg} {s : State} : exec (.quadB0101 neg) s = execQuadB0101 neg s := rfl
theorem exec_quadB0110 {neg} {s : State} : exec (.quadB0110 neg) s = execQuadB0110 neg s := rfl
theorem exec_quadB0111 {neg} {s : State} : exec (.quadB0111 neg) s = execQuadB0111 neg s := rfl
theorem exec_quadB1000 {neg} {s : State} : exec (.quadB1000 neg) s = execQuadB1000 neg s := rfl
theorem exec_quadB1001 {neg} {s : State} : exec (.quadB1001 neg) s = execQuadB1001 neg s := rfl
theorem exec_quadB1010 {neg} {s : State} : exec (.quadB1010 neg) s = execQuadB1010 neg s := rfl
theorem exec_quadB1011 {neg} {s : State} : exec (.quadB1011 neg) s = execQuadB1011 neg s := rfl
theorem exec_quadB1100 {neg} {s : State} : exec (.quadB1100 neg) s = execQuadB1100 neg s := rfl
theorem exec_quadB1101 {neg} {s : State} : exec (.quadB1101 neg) s = execQuadB1101 neg s := rfl
theorem exec_quadB1110 {neg} {s : State} : exec (.quadB1110 neg) s = execQuadB1110 neg s := rfl
theorem exec_quadB1111 {neg} {s : State} : exec (.quadB1111 neg) s = execQuadB1111 neg s := rfl
theorem exec_pairOne00 {s : State} : exec .pairOne00 s = execPairOne00 s := rfl
theorem exec_pairOne01 {negY} {s : State} : exec (.pairOne01 negY) s = execPairOne01 negY s := rfl
theorem exec_pairOne10 {negX} {s : State} : exec (.pairOne10 negX) s = execPairOne10 negX s := rfl
theorem exec_pairOne11 {negX negY} {s : State} : exec (.pairOne11 negX negY) s = execPairOne11 negX negY s := rfl
theorem exec_huffPair0 {s : State} : exec .huffPair0 s = execHuffPair0 s := rfl
theorem exec_huffPair1 {s : State} : exec .huffPair1 s = execHuffPair1 s := rfl
theorem exec_huffPair2 {s : State} : exec .huffPair2 s = execHuffPair2 s := rfl
theorem exec_huffPair3 {s : State} : exec .huffPair3 s = execHuffPair3 s := rfl
theorem exec_huffPair4 {s : State} : exec .huffPair4 s = execHuffPair4 s := rfl
theorem exec_huffPair5 {s : State} : exec .huffPair5 s = execHuffPair5 s := rfl
theorem exec_huffPair6 {s : State} : exec .huffPair6 s = execHuffPair6 s := rfl
theorem exec_huffPair7 {s : State} : exec .huffPair7 s = execHuffPair7 s := rfl
theorem exec_huffPair8 {s : State} : exec .huffPair8 s = execHuffPair8 s := rfl
theorem exec_huffPair9 {s : State} : exec .huffPair9 s = execHuffPair9 s := rfl
theorem exec_huffPair10 {s : State} : exec .huffPair10 s = execHuffPair10 s := rfl
theorem exec_huffPair11 {s : State} : exec .huffPair11 s = execHuffPair11 s := rfl
theorem exec_huffPair12 {s : State} : exec .huffPair12 s = execHuffPair12 s := rfl
theorem exec_huffPair13 {s : State} : exec .huffPair13 s = execHuffPair13 s := rfl
theorem exec_huffPair14 {s : State} : exec .huffPair14 s = execHuffPair14 s := rfl
theorem exec_huffPair15 {s : State} : exec .huffPair15 s = execHuffPair15 s := rfl
theorem exec_huffPair16 {s : State} : exec .huffPair16 s = execHuffPair16 s := rfl
theorem exec_huffPair17 {s : State} : exec .huffPair17 s = execHuffPair17 s := rfl
theorem exec_huffPair18 {s : State} : exec .huffPair18 s = execHuffPair18 s := rfl
theorem exec_huffPair19 {s : State} : exec .huffPair19 s = execHuffPair19 s := rfl
theorem exec_huffPair20 {s : State} : exec .huffPair20 s = execHuffPair20 s := rfl
theorem exec_huffPair21 {s : State} : exec .huffPair21 s = execHuffPair21 s := rfl
theorem exec_huffPair22 {s : State} : exec .huffPair22 s = execHuffPair22 s := rfl
theorem exec_huffPair23 {s : State} : exec .huffPair23 s = execHuffPair23 s := rfl
theorem exec_huffPair24 {s : State} : exec .huffPair24 s = execHuffPair24 s := rfl
theorem exec_huffPair25 {s : State} : exec .huffPair25 s = execHuffPair25 s := rfl
theorem exec_huffPair26 {s : State} : exec .huffPair26 s = execHuffPair26 s := rfl
theorem exec_huffPair27 {s : State} : exec .huffPair27 s = execHuffPair27 s := rfl
theorem exec_huffPair28 {s : State} : exec .huffPair28 s = execHuffPair28 s := rfl
theorem exec_huffPair29 {s : State} : exec .huffPair29 s = execHuffPair29 s := rfl
theorem exec_huffPair30 {s : State} : exec .huffPair30 s = execHuffPair30 s := rfl
theorem exec_huffPair31 {s : State} : exec .huffPair31 s = execHuffPair31 s := rfl
theorem exec_causeFrameSize {s : State} : exec .causeFrameSize s = execCauseFrameSize s := rfl
theorem exec_causeMainSize {s : State} : exec .causeMainSize s = execCauseMainSize s := rfl
theorem exec_causeBitsOverrun {s : State} : exec .causeBitsOverrun s = execCauseBitsOverrun s := rfl
theorem exec_causeScfCount {s : State} : exec .causeScfCount s = execCauseScfCount s := rfl
theorem exec_causeHuffTableReserved {s : State} : exec .causeHuffTableReserved s = execCauseHuffTableReserved s := rfl
theorem exec_causeHuffIllegal {s : State} : exec .causeHuffIllegal s = execCauseHuffIllegal s := rfl
theorem exec_causeLineRange {s : State} : exec .causeLineRange s = execCauseLineRange s := rfl
theorem exec_causeRegionRange {s : State} : exec .causeRegionRange s = execCauseRegionRange s := rfl
theorem exec_causeStereoBlockMismatch {s : State} : exec .causeStereoBlockMismatch s = execCauseStereoBlockMismatch s := rfl
theorem exec_causeSiTruncated {s : State} : exec .causeSiTruncated s = execCauseSiTruncated s := rfl
theorem exec_causeMainTruncated {s : State} : exec .causeMainTruncated s = execCauseMainTruncated s := rfl
theorem exec_causeRsvInsufficient {s : State} : exec .causeRsvInsufficient s = execCauseRsvInsufficient s := rfl

end Sys2Proof.Machine
end

