-- ==== Sys2Proof/Laws/Frames.lean ====
section
/-! SUPPORT. The frame of every operation, once: what it leaves as it was, whatever it completes with or raises. -/

namespace Sys2Proof.Machine

/-- The registers only a raise, `RESET`, a `FRAME` or the port write (`ret` apart, which only an element operation writes). -/
def State.control (s : State) : Status × Cause × SeqPos × Hdr × (List Byte × Bool) × CmdOutcome × Ret × Nat :=
  (s.status, s.cause, s.whr, s.hdr, (s.port, s.bench), s.outcome, s.ret, s.free)

/-- The memories that outlive a frame, and `PCM`. -/
def State.persistent (s : State) : Two Lines × Two History × List Byte × List Byte × Memory :=
  (s.store, s.vvec, s.rsv, s.md, s.pcm)

theorem State.control_eq {s t : State} (h : t.control = s.control) : t.status = s.status ∧ t.cause = s.cause ∧ t.whr = s.whr ∧
    t.hdr = s.hdr ∧ (t.port = s.port ∧ t.bench = s.bench) ∧ t.outcome = s.outcome ∧ t.ret = s.ret ∧ t.free = s.free := by
  simpa only [State.control, Prod.mk.injEq] using h

theorem State.persistent_eq {s t : State} (h : t.persistent = s.persistent) :
    t.store = s.store ∧ t.vvec = s.vvec ∧ t.rsv = s.rsv ∧ t.md = s.md ∧ t.pcm = s.pcm := by
  simpa only [State.persistent, Prod.mk.injEq] using h

/-- What the parsing operations may do: `XR`, `SCF_L`, `SCF_S`, `SI.*`, `BITPOS` and the place in the sequence may change,
`SI.MAIN_DATA_BEGIN` not. -/
def Parses (s t : State) : Prop :=
  t.control = s.control ∧ t.persistent = s.persistent ∧ (s.seq.op.isStage = true → t.seq.op.isStage = true) ∧ t.si.mainDataBegin = s.si.mainDataBegin

/-- What the reconstruction operations may do: `XR`, `STORE`, `VVEC`, `PCM` and the place in the sequence may change, `PCM` keeping its
form. -/
def Rebuilds (s t : State) : Prop :=
  t.control = s.control ∧ t.rsv = s.rsv ∧ t.md = s.md ∧ t.si = s.si ∧ (s.seq.op.isStage = true → t.seq.op.isStage = true) ∧
    (Memory.wf s.pcm = true → Memory.wf t.pcm = true)

theorem Parses.refl (s : State) : Parses s s := ⟨rfl, rfl, id, rfl⟩

theorem Parses.trans {s t u : State} (h : Parses s t) (k : Parses t u) : Parses s u :=
  ⟨k.1.trans h.1, k.2.1.trans h.2.1, fun w => k.2.2.1 (h.2.2.1 w), k.2.2.2.trans h.2.2.2⟩

theorem Rebuilds.trans {s t u : State} (h : Rebuilds s t) (k : Rebuilds t u) : Rebuilds s u :=
  ⟨k.1.trans h.1, k.2.1.trans h.2.1, k.2.2.1.trans h.2.2.1, k.2.2.2.1.trans h.2.2.2.1,
    fun w => k.2.2.2.2.1 (h.2.2.2.2.1 w), fun w => k.2.2.2.2.2 (h.2.2.2.2.2 w)⟩

/-! ### Scale factors -/

theorem readLong_parses (gr ch : Fin 2) (w b : Nat) (s : State) :
    (readLong gr ch w b s).Ends (Parses s) :=
  Res.Ends.andThen (P := Parses s) (getBits_ends fun _ => ⟨rfl, rfl, id, rfl⟩) fun _ _ k => k.trans ⟨rfl, rfl, id, rfl⟩

theorem readShort_parses (gr ch : Fin 2) (w b : Nat) (s : State) :
    (readShort gr ch w b s).Ends (Parses s) := by
  refine Res.Ends.forEach (.refl s) fun win _ t k => Res.Ends.andThen (P := Parses s) ?_ fun v u l => ?_
  · exact getBits_ends fun _ => k.trans ⟨rfl, rfl, id, rfl⟩
  · exact l.trans ⟨rfl, rfl, id, rfl⟩

theorem scfGroup_parses (gr ch : Fin 2) (k b0 b1 w : Nat) (s : State) :
    (scfGroup gr ch k b0 b1 w s).Ends (Parses s) := by
  unfold scfGroup
  split
  · exact Res.Ends.forEach (.refl s) fun b _ t k => (readLong_parses gr ch w b t).mono fun _ => k.trans
  · exact Res.Ends.forEach (P := Parses s) (.refl s) fun b _ t k => k.trans ⟨rfl, rfl, id, rfl⟩

theorem scfM1Short_parses (gr ch : Fin 2) (b0 w v : Nat) (s : State) :
    (scfM1Short gr ch b0 w v s).Ends (Parses s) :=
  Res.Ends.forEach (.refl s) fun b _ t k => (readShort_parses gr ch _ b t).mono fun _ => k.trans

theorem scfM1Long_parses (gr ch : Fin 2) (w v : Nat) (s : State) :
    (scfM1Long gr ch w v s).Ends (Parses s) :=
  (scfGroup_parses gr ch _ _ _ _ s).andThen fun _ t k =>
    ((scfGroup_parses gr ch _ _ _ _ t).mono fun _ => k.trans).andThen fun _ t k =>
      ((scfGroup_parses gr ch _ _ _ _ t).mono fun _ => k.trans).andThen fun _ t k =>
        (scfGroup_parses gr ch _ _ _ _ t).mono fun _ => k.trans

/-- Taking a place in the sequence. -/
theorem stage_parses {s : State} {op : Opid} (h : op.isStage = true) (gr ch : Fin 2) : Parses s (s.stage op gr ch) :=
  ⟨rfl, rfl, fun _ => h, rfl⟩

theorem opScfM1_parses (gr ch : Fin 2) (s : State) : (opScfM1 gr ch s).Ends (Parses s) := by
  unfold opScfM1
  have h : Parses s (s.stage .scfM1 gr ch) := stage_parses rfl gr ch
  refine Res.Ends.andThen (P := Parses s) ?_ fun _ _ k => k
  refine Res.Ends.mono (P := Parses (s.stage .scfM1 gr ch)) ?_ fun _ => h.trans
  split
  · refine (Res.Ends.forEach (.refl _) fun b _ t k => (readLong_parses gr ch _ b t).mono fun _ => k.trans).andThen
      fun _ t k => (scfM1Short_parses gr ch _ _ _ t).mono fun _ => k.trans
  · split
    · exact scfM1Short_parses gr ch _ _ _ _
    · exact scfM1Long_parses gr ch _ _ _

theorem readFields_parses (w n : Nat) (s : State) : (readFields w n s).Ends (Parses s) := by
  induction n generalizing s with
  | zero => exact .refl s
  | succ n ih =>
    exact Res.Ends.andThen (P := Parses s) (getBits_ends fun _ => ⟨rfl, rfl, id, rfl⟩) fun _ t k =>
      ((ih t).mono fun _ => k.trans).andThen fun _ _ l => l

theorem readPartitions_parses (n : Nat) (e : Nslen2) (parts : List Nat) (s : State) :
    (readPartitions n e parts s).Ends (Parses s) := by
  induction parts generalizing s with
  | nil => exact .refl s
  | cons i rest ih =>
    exact (readFields_parses _ _ s).andThen fun _ t k => ((ih t).mono fun _ => k.trans).andThen fun _ _ l => l

theorem opScfM2_parses (ch : Fin 2) (s : State) : (opScfM2 ch s).Ends (Parses s) := by
  unfold opScfM2
  have h : Parses s ((s.stage .scfM2 0 ch).setGran 0 ch
      { (s.stage .scfM2 0 ch).gran 0 ch with preflag := (nslen2 ((s.stage .scfM2 0 ch).gran 0 ch).scalefacCompress.toNat).preflag }) :=
    ⟨rfl, rfl, fun _ => rfl, rfl⟩
  refine Res.Ends.andThen (P := Parses s) ((readPartitions_parses _ _ _ _).mono fun _ => h.trans) fun _ t k => ?_
  refine Res.Ends.andThen (P := Parses s) ?_ fun _ _ l => l
  unfold distribute
  split
  · exact k.trans ⟨rfl, rfl, id, rfl⟩
  · split
    · exact k.trans ⟨rfl, rfl, id, rfl⟩
    · exact ⟨by decide, k⟩

/-! ### The Huffman decoder -/

theorem readBook_parses {α : Type} (b : Book α) (s : State) : (readBook b s).Ends (Parses s) :=
  readBook_ends b s fun _ => ⟨rfl, rfl, id, rfl⟩

theorem readEscape_ends {P : State → Prop} (t x : Nat) (s : State) (h : ∀ p, P { s with bitpos := p }) :
    (readEscape t x s).Ends fun t => ∀ p, P { t with bitpos := p } := by
  unfold readEscape
  split
  · exact Res.Ends.andThen (P := fun t => ∀ p, P { t with bitpos := p }) (getBits_ends fun _ => h) fun _ _ k => k
  · exact h

theorem readSign_ends {P : State → Prop} (x : Nat) (s : State) (h : ∀ p, P { s with bitpos := p }) :
    (readSign x s).Ends fun t => ∀ p, P { t with bitpos := p } := by
  unfold readSign
  split
  · exact Res.Ends.andThen (P := fun t => ∀ p, P { t with bitpos := p }) (getBits_ends fun _ => h) fun _ _ k => k
  · exact h

/-- A pair changes `BITPOS` alone. -/
theorem opHufPair_ends {P : State → Prop} (t : Nat) (s : State) (h : ∀ p, P { s with bitpos := p }) :
    (opHufPair t s).Ends fun t => ∀ p, P { t with bitpos := p } := by
  unfold opHufPair
  split
  · exact h
  · split
    · exact ⟨by decide, h⟩
    · exact (readBook_ends (P := fun t => ∀ p, P { t with bitpos := p }) _ s fun _ => h).andThen fun _ _ h =>
        (readEscape_ends _ _ _ h).andThen fun _ _ h => (readSign_ends _ _ h).andThen fun _ _ h =>
        (readEscape_ends _ _ _ h).andThen fun _ _ h => (readSign_ends _ _ h).andThen fun _ _ h => h

/-- A quadruple changes `BITPOS` alone. -/
theorem opHufQuad_ends {P : State → Prop} (q : Bool) (s : State) (h : ∀ p, P { s with bitpos := p }) :
    (opHufQuad q s).Ends fun t => ∀ p, P { t with bitpos := p } := by
  unfold opHufQuad
  exact (readBook_ends (P := fun t => ∀ p, P { t with bitpos := p }) _ s fun _ => h).andThen fun _ _ h =>
    (readSign_ends _ _ h).andThen fun _ _ h => (readSign_ends _ _ h).andThen fun _ _ h =>
    (readSign_ends _ _ h).andThen fun _ _ h => (readSign_ends _ _ h).andThen fun _ _ h => h

theorem bigPair_parses (gr ch : Fin 2) (g : Gran) (r : Nat × Nat) (k : Nat) (s : State) :
    (bigPair gr ch g r k s).Ends (Parses s) := by
  refine Res.Ends.andThen (P := Parses s) ?_ fun v u l => ?_
  · exact (opHufPair_ends (P := Parses s) _ s fun _ => ⟨rfl, rfl, id, rfl⟩).mono fun t k => k t.bitpos
  · exact l.trans ⟨rfl, rfl, id, rfl⟩

theorem opHufBig_parses (gr ch : Fin 2) (s : State) : (opHufBig gr ch s).Ends (Parses s) := by
  unfold opHufBig
  dsimp only
  split
  · exact ⟨by decide, .refl s⟩
  · split
    · exact ⟨by decide, .refl s⟩
    · exact Res.Ends.forEach (.refl s) fun k _ t l => (bigPair_parses gr ch _ _ k t).mono fun _ => l.trans

theorem cnt1Loop_parses (gr ch : Fin 2) (q : Bool) (e fuel p : Nat) (s : State) :
    (cnt1Loop gr ch q e fuel p s).Ends (Parses s) := by
  induction fuel generalizing p s with
  | zero => exact .refl s
  | succ n ih =>
    unfold cnt1Loop
    split
    · have hq := opHufQuad_ends (P := Parses s) q s fun _ => ⟨rfl, rfl, id, rfl⟩
      cases hr : opHufQuad q s with
      | raised c t => rw [hr] at hq; exact ⟨hq.1, hq.2 t.bitpos⟩
      | ok v t =>
        rw [hr] at hq
        have k : Parses s t := hq t.bitpos
        have l : Parses t (setQuad gr ch p v t) := ⟨rfl, rfl, id, rfl⟩
        rw [andThen_ok]
        exact (ih _ (setQuad gr ch p v t)).mono fun _ => (k.trans l).trans
    · exact .refl s

theorem opHufCnt1_parses (gr ch : Fin 2) (start : Nat) (s : State) :
    (opHufCnt1 gr ch start s).Ends (Parses s) :=
  (cnt1Loop_parses gr ch _ _ _ _ s).andThen fun _ _ k => k.trans ⟨rfl, rfl, id, rfl⟩

theorem opHufGranule_parses (gr ch : Fin 2) (start : Nat) (s : State) : (opHufGranule gr ch start s).Ends (Parses s) := by
  unfold opHufGranule
  have h : Parses s (s.stage .hufGranule gr ch) := stage_parses rfl gr ch
  dsimp only
  split
  · exact h.trans ⟨rfl, rfl, fun _ => rfl, rfl⟩
  · exact ((opHufBig_parses gr ch _).mono fun _ => h.trans).andThen fun _ t k =>
      (opHufCnt1_parses gr ch start t).mono fun _ => k.trans

theorem opScfClear_parses (s : State) : (opScfClear s).Ends (Parses s) := ⟨rfl, rfl, fun _ => rfl, rfl⟩

theorem parseOne_parses (gr ch : Fin 2) (s : State) : (parseOne gr ch s).Ends (Parses s) := by
  unfold parseOne
  refine Res.Ends.andThen (P := Parses s) ?_ fun a t k => (opHufGranule_parses gr ch a t).mono fun _ => k.trans
  split
  · exact opScfM2_parses ch s
  · exact opScfM1_parses gr ch s

theorem parseMain_parses (s : State) : (parseMain s).Ends (Parses s) :=
  Res.Ends.forEach (.refl s) fun g _ t k => (parseOne_parses g.1 g.2 t).mono fun _ => k.trans

/-! ### Reconstruction -/

theorem opReq_rebuilds (gr ch : Fin 2) (s : State) : (opReq gr ch s).Ends (Rebuilds s) := ⟨rfl, rfl, rfl, rfl, fun _ => rfl, id⟩

theorem opReord_rebuilds (gr ch : Fin 2) (s : State) : (opReord gr ch s).Ends (Rebuilds s) := ⟨rfl, rfl, rfl, rfl, fun _ => rfl, id⟩

theorem opStereo_rebuilds (gr : Fin 2) (s : State) : (opStereo gr s).Ends (Rebuilds s) := by
  have h : Rebuilds s (s.stage .stereo gr 0) := ⟨rfl, rfl, rfl, rfl, fun _ => rfl, id⟩
  unfold opStereo
  dsimp only
  split
  · exact h
  · split
    · exact h
    · split
      · exact ⟨by decide, h⟩
      · exact ⟨rfl, rfl, rfl, rfl, fun _ => rfl, id⟩

theorem opAlias_rebuilds (gr ch : Fin 2) (s : State) : (opAlias gr ch s).Ends (Rebuilds s) := ⟨rfl, rfl, rfl, rfl, fun _ => rfl, id⟩

theorem opFinv_rebuilds (gr ch : Fin 2) (s : State) : (opFinv gr ch s).Ends (Rebuilds s) := ⟨rfl, rfl, rfl, rfl, fun _ => rfl, id⟩

/-- Anything that holds at the start and that every turn of a fold keeps holds at its end. -/
theorem foldl_keeps {α β : Type} {P : β → Prop} (l : List α) (f : β → α → β) (b : β) (h : P b)
    (hf : ∀ a ∈ l, ∀ b, P b → P (f b a)) : P (l.foldl f b) := by
  induction l generalizing b with
  | nil => exact h
  | cons a l ih => exact ih (f b a) (hf a (by simp) b h) fun c hc => hf c (by simp [hc])

theorem opHyb_rebuilds (gr ch : Fin 2) (s : State) : (opHyb gr ch s).Ends (Rebuilds s) :=
  foldl_keeps (P := Rebuilds s) _ _ _ ⟨rfl, rfl, rfl, rfl, fun _ => rfl, id⟩ fun _ _ _ k =>
    k.trans ⟨rfl, rfl, rfl, rfl, id, id⟩

/-- A sample's two bytes are inside `PCM`. -/
theorem pcmBase_lt (gr : Fin 2) {t : Nat} (c : Fin 2) (h : t < 576) : pcmBase gr t c + 1 < pcmSize := by
  unfold pcmBase pcmSize
  omega

theorem storeSample_wf {m : Memory} {base : Nat} (u : BitVec 16) (hm : Memory.wf m = true) (hb : base + 1 < pcmSize) :
    Memory.wf (storeSample base u m) = true :=
  Memory.wf_write _ (Memory.wf_write _ hm (by omega)) hb

theorem packSample_pcm_wf (gr ch : Fin 2) {t : Nat} (x : F32) (s : State) (ht : t < 576) (h : Memory.wf s.pcm = true) :
    Memory.wf (packSample gr ch t x s).pcm = true :=
  foldl_keeps (P := fun m => Memory.wf m = true) _ _ _ h fun _ _ _ hm => storeSample_wf _ hm (pcmBase_lt _ _ ht)

theorem synthStep_rebuilds (gr ch : Fin 2) {ss : Nat} (s : State) (hss : ss < 18) :
    Rebuilds s (synthStep gr ch ss s) := by
  unfold synthStep
  refine foldl_keeps (P := Rebuilds s) _ _ _ ⟨rfl, rfl, rfl, rfl, id, id⟩ fun j hj t k => ?_
  refine k.trans ⟨rfl, rfl, rfl, rfl, id, fun w => packSample_pcm_wf gr ch _ t ?_ w⟩
  have := List.mem_range.1 hj
  omega

theorem opSynth_rebuilds (gr ch : Fin 2) (s : State) : (opSynth gr ch s).Ends (Rebuilds s) :=
  foldl_keeps (P := Rebuilds s) _ _ _ ⟨rfl, rfl, rfl, rfl, fun _ => rfl, id⟩ fun _ hss _ k =>
    k.trans (synthStep_rebuilds gr ch _ (List.mem_range.1 hss))

theorem afterStereo_rebuilds (gr ch : Fin 2) (s : State) : (afterStereo gr ch s).Ends (Rebuilds s) :=
  (opAlias_rebuilds gr ch s).andThen fun _ t k => ((opHyb_rebuilds gr ch t).mono fun _ => k.trans).andThen fun _ t k =>
    ((opFinv_rebuilds gr ch t).mono fun _ => k.trans).andThen fun _ t k => (opSynth_rebuilds gr ch t).mono fun _ => k.trans

theorem beforeStereo_rebuilds (gr ch : Fin 2) (s : State) : (beforeStereo gr ch s).Ends (Rebuilds s) :=
  (opReq_rebuilds gr ch s).andThen fun _ t k => (opReord_rebuilds gr ch t).mono fun _ => k.trans

theorem Rebuilds.refl (s : State) : Rebuilds s s := ⟨rfl, rfl, rfl, rfl, id, id⟩

theorem reconstructOne_rebuilds (gr : Fin 2) (s : State) :
    (reconstructOne gr s).Ends (Rebuilds s) :=
  (Res.Ends.forEach (.refl s) fun ch _ t k => (beforeStereo_rebuilds gr ch t).mono fun _ => k.trans).andThen fun _ t k =>
    ((opStereo_rebuilds gr t).mono fun _ => k.trans).andThen fun _ _ k =>
      Res.Ends.forEach k fun ch _ t k => (afterStereo_rebuilds gr ch t).mono fun _ => k.trans

theorem reconstruct_rebuilds (s : State) : (reconstruct s).Ends (Rebuilds s) :=
  Res.Ends.forEach (.refl s) fun gr _ t k => (reconstructOne_rebuilds gr t).mono fun _ => k.trans

/-! ### A whole frame -/

/-- What every operation of a frame may do: the control registers stay, the place in the sequence is a stage's, `PCM` keeps its
form. -/
def Framed (s t : State) : Prop :=
  t.control = s.control ∧ (s.seq.op.isStage = true → t.seq.op.isStage = true) ∧ (Memory.wf s.pcm = true → Memory.wf t.pcm = true)

theorem Framed.trans {s t u : State} (h : Framed s t) (k : Framed t u) : Framed s u :=
  ⟨k.1.trans h.1, fun w => k.2.1 (h.2.1 w), fun w => k.2.2 (h.2.2 w)⟩

theorem Parses.pcm {s t : State} (h : Parses s t) : t.pcm = s.pcm := congrArg (fun x => x.2.2.2.2) h.2.1

theorem Parses.framed {s t : State} (h : Parses s t) : Framed s t := ⟨h.1, h.2.2.1, fun w => h.pcm ▸ w⟩

theorem Rebuilds.framed {s t : State} (h : Rebuilds s t) : Framed s t := ⟨h.1, h.2.2.2.2.1, h.2.2.2.2.2⟩

theorem opLoadsi_framed (image : List Byte) (s : State) : (opLoadsi image s).Ends (Framed s) := by
  unfold opLoadsi
  dsimp only
  split
  · exact ⟨by decide, rfl, fun _ => rfl, id⟩
  · split
    · exact ⟨by decide, rfl, fun _ => rfl, id⟩
    · exact ⟨rfl, fun _ => rfl, id⟩

theorem opRsvCheck_framed (s : State) : (opRsvCheck s).Ends (Framed s) := by
  unfold opRsvCheck
  dsimp only
  split
  · exact ⟨by decide, rfl, fun _ => rfl, id⟩
  · split
    · exact ⟨by decide, rfl, fun _ => rfl, id⟩
    · exact ⟨rfl, fun _ => rfl, id⟩

theorem opRsvRecv_framed (main : List Byte) (s : State) : (opRsvRecv main s).Ends (Framed s) := by
  unfold opRsvRecv
  dsimp only
  split
  · exact ⟨by decide, rfl, fun _ => rfl, id⟩
  · exact ⟨rfl, fun _ => rfl, id⟩

theorem opRsvAppend_framed (main : List Byte) (s : State) : (opRsvAppend main s).Ends (Framed s) := ⟨by decide, rfl, fun _ => rfl, id⟩

theorem opRsvSplice_framed (main : List Byte) (s : State) : (opRsvSplice main s).Ends (Framed s) := ⟨rfl, fun _ => rfl, id⟩

theorem reservoir_framed (main : List Byte) (s : State) : (reservoir main s).Ends (Framed s) := by
  unfold reservoir
  split
  · exact opRsvAppend_framed main s
  · exact opRsvSplice_framed main s

theorem opFrame_framed (r : FrameRec) (s : State) : (opFrame r s).Ends (Framed s) :=
  (opLoadsi_framed _ s).andThen fun _ t k => ((opRsvCheck_framed t).mono fun _ => k.trans).andThen fun _ t k =>
    ((opRsvRecv_framed _ t).mono fun _ => k.trans).andThen fun _ t k => ((reservoir_framed _ t).mono fun _ => k.trans).andThen
      fun _ t k => ((opScfClear_parses t).mono fun _ h => k.trans h.framed).andThen fun _ t k =>
        ((parseMain_parses t).mono fun _ h => k.trans h.framed).andThen fun _ t k =>
          (reconstruct_rebuilds t).mono fun _ h => k.trans h.framed

end Sys2Proof.Machine
end

