-- ==== Sys2Proof/Laws/Exec.lean ====
section
/-! SUPPORT. What `exec` can answer: one lemma that says it for every instruction but the five that write control registers
directly. -/

namespace Sys2Proof.Machine

/-- What the host may issue, by name. -/
theorem hostMayIssue_iff (i : Instr) :
    i.hostMayIssue = true ↔ i = .reset ∨ (∃ r, i = .frame r) ∨ ∃ k fs, i = .prime k fs := by
  cases i <;> simp [Instr.hostMayIssue, Instr.cls]

/-- The instructions that write control registers other than by a raise. -/
def writesControl : Instr → Bool
  | .idle | .reset | .frame _ | .prime _ _ | .header _ => true
  | _ => false

/-- The instructions that write a memory of `State.persistent` other than by a raise. -/
def writesPersistent : Instr → Bool
  | .hyb _ _ | .ola _ _ _ _ | .synth _ _ | .pcmPack _ _ _ _ _ | .rsvAppend _ | .rsvSplice _ => true
  | _ => false

/-- The operation completes, its value returned, or raises; either way control registers and, but for six instructions, memories
are as they were. -/
def Answers (i : Instr) (s t : State) : Prop :=
  ∃ u, Framed s u ∧ (writesPersistent i = false → u.persistent = s.persistent) ∧
    ((∃ r, t = u.returns r) ∨ ∃ c ops, c ≠ .noCause ∧ t = takeException c ops u)

theorem settle_answers {α : Type} {i : Instr} {s t : State} {ops : List Byte} {fin : α → State → State} {r : Res α}
    (hr : r.Ends fun u => Framed s u ∧ (writesPersistent i = false → u.persistent = s.persistent))
    (hf : ∀ a u, ∃ v, fin a u = u.returns v) (e : settle ops fin r = .next t) : Answers i s t := by
  cases r with
  | ok a u =>
    rw [settle_ok] at e
    obtain rfl := Host.Outcome.next.inj e
    exact ⟨u, hr.1, hr.2, .inl (hf a u)⟩
  | raised c u =>
    rw [settle_raised] at e
    obtain rfl := Host.Outcome.next.inj e
    exact ⟨u, hr.2.1, hr.2.2, .inr ⟨c, ops, hr.1, rfl⟩⟩

theorem runRet_answers {α : Type} {i : Instr} {s t : State} {w : α → Ret} {r : Res α}
    (hr : r.Ends fun u => Framed s u ∧ (writesPersistent i = false → u.persistent = s.persistent))
    (e : runRet w r = .next t) : Answers i s t :=
  settle_answers (fin := fun a s => s.returns (w a)) hr (fun _ _ => ⟨_, rfl⟩) e

theorem run_answers {i : Instr} {s t : State} {r : Res Unit}
    (hr : r.Ends fun u => Framed s u ∧ (writesPersistent i = false → u.persistent = s.persistent))
    (e : run r = .next t) : Answers i s t :=
  settle_answers (fin := fun _ s => s) hr (fun _ u => ⟨u.ret, rfl⟩) e

/-- An answer that is the state itself, changed in other registers. -/
theorem Answers.of_next {i : Instr} {s t u : State} (e : (.next u : Host.Outcome State Fault Refusal) = .next t) (h : Answers i s u) :
    Answers i s t := Host.Outcome.next.inj e ▸ h

/-- An answer that leaves control registers and memories alone. -/
theorem Answers.same {i : Instr} {s u : State} (hc : u.control = s.control) (hq : u.seq = s.seq)
    (hm : u.persistent = s.persistent) : Answers i s u :=
  ⟨u, ⟨hc, fun w => hq ▸ w, fun k => (congrArg (fun x => x.2.2.2.2) hm : u.pcm = s.pcm) ▸ k⟩, fun _ => hm, .inl ⟨u.ret, rfl⟩⟩

/-- An answer that moves the bit cursor and returns a value. -/
theorem Answers.moved {i : Instr} {s : State} (p : Nat) (v : Ret) :
    Answers i s ((s.setBitpos p).returns v) :=
  ⟨s.setBitpos p, ⟨rfl, id, id⟩, fun _ => rfl, .inl ⟨v, rfl⟩⟩

theorem Parses.both {i : Instr} {s t : State} (h : Parses s t) :
    Framed s t ∧ (writesPersistent i = false → t.persistent = s.persistent) := ⟨h.framed, fun _ => h.2.1⟩

theorem opLoadsi_quiet {i : Instr} (image : List Byte) (s : State) :
    (opLoadsi image s).Ends fun u => Framed s u ∧ (writesPersistent i = false → u.persistent = s.persistent) := by
  have h := opLoadsi_framed image s
  unfold opLoadsi at h ⊢
  dsimp only at h ⊢
  split at h
  · rw [if_pos ‹_›]; exact ⟨h.1, h.2, fun _ => rfl⟩
  · rw [if_neg ‹_›]
    split at h
    · rw [if_pos ‹_›]; exact ⟨h.1, h.2, fun _ => rfl⟩
    · rw [if_neg ‹_›]; exact ⟨h, fun _ => rfl⟩

theorem opRsvCheck_quiet {i : Instr} (s : State) :
    (opRsvCheck s).Ends fun u => Framed s u ∧ (writesPersistent i = false → u.persistent = s.persistent) := by
  have h := opRsvCheck_framed s
  unfold opRsvCheck at h ⊢
  dsimp only at h ⊢
  split at h
  · rw [if_pos ‹_›]; exact ⟨h.1, h.2, fun _ => rfl⟩
  · rw [if_neg ‹_›]
    split at h
    · rw [if_pos ‹_›]; exact ⟨h.1, h.2, fun _ => rfl⟩
    · rw [if_neg ‹_›]; exact ⟨h, fun _ => rfl⟩

theorem opRsvRecv_quiet {i : Instr} (main : List Byte) (s : State) :
    (opRsvRecv main s).Ends fun u => Framed s u ∧ (writesPersistent i = false → u.persistent = s.persistent) := by
  have h := opRsvRecv_framed main s
  unfold opRsvRecv at h ⊢
  dsimp only at h ⊢
  split at h
  · rw [if_pos ‹_›]; exact ⟨h.1, h.2, fun _ => rfl⟩
  · rw [if_neg ‹_›]; exact ⟨h, fun _ => rfl⟩

theorem opStereo_quiet {i : Instr} (gr : Fin 2) (s : State) :
    (opStereo gr s).Ends fun u => Framed s u ∧ (writesPersistent i = false → u.persistent = s.persistent) := by
  have k : Framed s (s.stage .stereo gr 0) := ⟨rfl, fun _ => rfl, id⟩
  unfold opStereo
  dsimp only
  split
  · exact ⟨k, fun _ => rfl⟩
  · split
    · exact ⟨k, fun _ => rfl⟩
    · split
      · exact ⟨by decide, k, fun _ => rfl⟩
      · exact ⟨⟨rfl, fun _ => rfl, id⟩, fun _ => rfl⟩

theorem exec_answers (i : Instr) {s t : State} (hw : writesControl i = false)
    (e : exec i s = .next t) : Answers i s t := by
  have get : ∀ n, (getBits n s).Ends (Parses s) := fun n => getBits_ends fun _ => ⟨rfl, rfl, id, rfl⟩
  have pair : ∀ n, (opHufPair n s).Ends (Parses s) := fun n =>
    (opHufPair_ends (P := Parses s) n s fun _ => ⟨rfl, rfl, id, rfl⟩).mono fun t k => k t.bitpos
  have quad : ∀ q, (opHufQuad q s).Ends (Parses s) := fun q =>
    (opHufQuad_ends (P := Parses s) q s fun _ => ⟨rfl, rfl, id, rfl⟩).mono fun t k => k t.bitpos
  cases i
  case idle => cases hw
  case reset => cases hw
  case frame => cases hw
  case loadsi => rw [exec_loadsi, execLoadsi] at e; exact settle_answers (opLoadsi_quiet _ s) (fun _ u => ⟨u.ret, rfl⟩) e
  case bcRead => rw [exec_bcRead, execBcRead] at e; exact runRet_answers ((get _).mono fun _ => Parses.both) e
  case bcPos => rw [exec_bcPos, execBcPos] at e; exact .of_next e ⟨s, ⟨rfl, id, id⟩, fun _ => rfl, .inl ⟨_, rfl⟩⟩
  case bcSetpos => rw [exec_bcSetpos, execBcSetpos] at e; exact .of_next e (.same rfl rfl rfl)
  case rsvCheck => rw [exec_rsvCheck, execRsvCheck] at e; exact run_answers (opRsvCheck_quiet s) e
  case rsvRecv => rw [exec_rsvRecv, execRsvRecv] at e; exact settle_answers (opRsvRecv_quiet _ s) (fun _ u => ⟨u.ret, rfl⟩) e
  case rsvAppend => rw [exec_rsvAppend, execRsvAppend] at e; exact settle_answers ((opRsvAppend_framed _ s).mono fun _ h => ⟨h, nofun⟩) (fun _ u => ⟨u.ret, rfl⟩) e
  case rsvSplice => rw [exec_rsvSplice, execRsvSplice] at e; exact settle_answers ((opRsvSplice_framed _ s).mono fun _ h => ⟨h, nofun⟩) (fun _ u => ⟨u.ret, rfl⟩) e
  case scfClear => rw [exec_scfClear, execScfClear] at e; exact run_answers ((opScfClear_parses s).mono fun _ => Parses.both) e
  case scfM1 => rw [exec_scfM1, execScfM1] at e; exact runRet_answers ((opScfM1_parses _ _ s).mono fun _ => Parses.both) e
  case scfM2 => rw [exec_scfM2, execScfM2] at e; exact runRet_answers ((opScfM2_parses _ s).mono fun _ => Parses.both) e
  case hufGranule => rw [exec_hufGranule, execHufGranule] at e; exact run_answers ((opHufGranule_parses _ _ _ s).mono fun _ => Parses.both) e
  case hufBig => rw [exec_hufBig, execHufBig] at e; exact run_answers ((opHufBig_parses _ _ s).mono fun _ => Parses.both) e
  case hufCnt1 => rw [exec_hufCnt1, execHufCnt1] at e; exact run_answers ((opHufCnt1_parses _ _ _ s).mono fun _ => Parses.both) e
  case hufPair => rw [exec_hufPair, execHufPair] at e; exact runRet_answers ((pair _).mono fun _ => Parses.both) e
  case hufQuad => rw [exec_hufQuad, execHufQuad] at e; exact runRet_answers ((quad _).mono fun _ => Parses.both) e
  case req gr ch =>
    rw [exec_req, execReq] at e
    exact run_answers (r := opReq gr ch s) ⟨⟨rfl, fun _ => rfl, id⟩, fun _ => rfl⟩ e
  case reord gr ch =>
    rw [exec_reord, execReord] at e
    exact run_answers (r := opReord gr ch s) ⟨⟨rfl, fun _ => rfl, id⟩, fun _ => rfl⟩ e
  case stereo => rw [exec_stereo, execStereo] at e; exact run_answers (opStereo_quiet _ s) e
  case antialias gr ch =>
    rw [exec_antialias, execAlias] at e
    exact run_answers (r := opAlias gr ch s) ⟨⟨rfl, fun _ => rfl, id⟩, fun _ => rfl⟩ e
  case hyb => rw [exec_hyb, execHyb] at e; exact run_answers ((opHyb_rebuilds _ _ s).mono fun _ h => ⟨h.framed, nofun⟩) e
  case finv gr ch =>
    rw [exec_finv, execFinv] at e
    exact run_answers (r := opFinv gr ch s) ⟨⟨rfl, fun _ => rfl, id⟩, fun _ => rfl⟩ e
  case synth => rw [exec_synth, execSynth] at e; exact run_answers ((opSynth_rebuilds _ _ s).mono fun _ h => ⟨h.framed, nofun⟩) e
  case pcmPack gr ss k ch x =>
    rw [exec_pcmPack, execPcmPack] at e
    exact .of_next e ⟨packSample gr ch (32 * ss.val + k.val) x s, ⟨rfl, id, packSample_pcm_wf _ _ _ s (by omega)⟩, nofun,
      .inl ⟨s.ret, rfl⟩⟩
  case reqL => rw [exec_reqL, execReqL] at e; exact .of_next e ⟨s, ⟨rfl, id, id⟩, fun _ => rfl, .inl ⟨_, rfl⟩⟩
  case reqS => rw [exec_reqS, execReqS] at e; exact .of_next e ⟨s, ⟨rfl, id, id⟩, fun _ => rfl, .inl ⟨_, rfl⟩⟩
  case stMs => rw [exec_stMs, execStMs] at e; exact .of_next e ⟨s, ⟨rfl, id, id⟩, fun _ => rfl, .inl ⟨_, rfl⟩⟩
  case stIs => rw [exec_stIs, execStIs] at e; exact .of_next e ⟨s, ⟨rfl, id, id⟩, fun _ => rfl, .inl ⟨_, rfl⟩⟩
  case imdctL => rw [exec_imdctL, execImdctL] at e; exact .of_next e ⟨s, ⟨rfl, id, id⟩, fun _ => rfl, .inl ⟨_, rfl⟩⟩
  case imdctS => rw [exec_imdctS, execImdctS] at e; exact .of_next e ⟨s, ⟨rfl, id, id⟩, fun _ => rfl, .inl ⟨_, rfl⟩⟩
  case ola => rw [exec_ola, execOla] at e; exact .of_next e ⟨overlapAdd _ _ _ _ s, ⟨rfl, id, id⟩, nofun, .inl ⟨s.ret, rfl⟩⟩
  case pcmConvert => rw [exec_pcmConvert, execPcmConvert] at e; exact .of_next e ⟨s, ⟨rfl, id, id⟩, fun _ => rfl, .inl ⟨_, rfl⟩⟩
  case prime => cases hw
  case getBits => rw [exec_getBits, execGetBits] at e; exact runRet_answers ((get _).mono fun _ => Parses.both) e
  case siGroupM1Ws1 => rw [exec_siGroupM1Ws1, execSiGroupM1Ws1] at e; exact .of_next e (.same rfl rfl rfl)
  case siGroupM1Ws0 => rw [exec_siGroupM1Ws0, execSiGroupM1Ws0] at e; exact .of_next e (.same rfl rfl rfl)
  case siGroupLsfWs1 => rw [exec_siGroupLsfWs1, execSiGroupLsfWs1] at e; exact .of_next e (.same rfl rfl rfl)
  case siGroupLsfWs0 => rw [exec_siGroupLsfWs0, execSiGroupLsfWs0] at e; exact .of_next e (.same rfl rfl rfl)
  case siHeadM1Mono => rw [exec_siHeadM1Mono, execSiHeadM1Mono] at e; exact .of_next e (.same rfl rfl rfl)
  case siHeadM1Stereo => rw [exec_siHeadM1Stereo, execSiHeadM1Stereo] at e; exact .of_next e (.same rfl rfl rfl)
  case siHeadLsfMono => rw [exec_siHeadLsfMono, execSiHeadLsfMono] at e; exact .of_next e (.same rfl rfl rfl)
  case siHeadLsfStereo => rw [exec_siHeadLsfStereo, execSiHeadLsfStereo] at e; exact .of_next e (.same rfl rfl rfl)
  case header => cases hw
  case pairItem => rw [exec_pairItem, execPairItem] at e; exact .of_next e (.moved _ _)
  case quadItem => rw [exec_quadItem, execQuadItem] at e; exact .of_next e (.moved _ _)
  case scfFieldM1 => rw [exec_scfFieldM1, execScfFieldM1] at e; exact runRet_answers ((get _).mono fun _ => Parses.both) e
  case scfFieldM2 => rw [exec_scfFieldM2, execScfFieldM2] at e; exact runRet_answers ((readFields_parses _ _ s).mono fun _ => Parses.both) e
  case quadA0000 => rw [exec_quadA0000, execQuadA0000] at e; exact .of_next e (.moved _ _)
  case quadA0001 => rw [exec_quadA0001, execQuadA0001] at e; exact .of_next e (.moved _ _)
  case quadA0010 => rw [exec_quadA0010, execQuadA0010] at e; exact .of_next e (.moved _ _)
  case quadA0011 => rw [exec_quadA0011, execQuadA0011] at e; exact .of_next e (.moved _ _)
  case quadA0100 => rw [exec_quadA0100, execQuadA0100] at e; exact .of_next e (.moved _ _)
  case quadA0101 => rw [exec_quadA0101, execQuadA0101] at e; exact .of_next e (.moved _ _)
  case quadA0110 => rw [exec_quadA0110, execQuadA0110] at e; exact .of_next e (.moved _ _)
  case quadA0111 => rw [exec_quadA0111, execQuadA0111] at e; exact .of_next e (.moved _ _)
  case quadA1000 => rw [exec_quadA1000, execQuadA1000] at e; exact .of_next e (.moved _ _)
  case quadA1001 => rw [exec_quadA1001, execQuadA1001] at e; exact .of_next e (.moved _ _)
  case quadA1010 => rw [exec_quadA1010, execQuadA1010] at e; exact .of_next e (.moved _ _)
  case quadA1011 => rw [exec_quadA1011, execQuadA1011] at e; exact .of_next e (.moved _ _)
  case quadA1100 => rw [exec_quadA1100, execQuadA1100] at e; exact .of_next e (.moved _ _)
  case quadA1101 => rw [exec_quadA1101, execQuadA1101] at e; exact .of_next e (.moved _ _)
  case quadA1110 => rw [exec_quadA1110, execQuadA1110] at e; exact .of_next e (.moved _ _)
  case quadA1111 => rw [exec_quadA1111, execQuadA1111] at e; exact .of_next e (.moved _ _)
  case quadB0000 => rw [exec_quadB0000, execQuadB0000] at e; exact .of_next e (.moved _ _)
  case quadB0001 => rw [exec_quadB0001, execQuadB0001] at e; exact .of_next e (.moved _ _)
  case quadB0010 => rw [exec_quadB0010, execQuadB0010] at e; exact .of_next e (.moved _ _)
  case quadB0011 => rw [exec_quadB0011, execQuadB0011] at e; exact .of_next e (.moved _ _)
  case quadB0100 => rw [exec_quadB0100, execQuadB0100] at e; exact .of_next e (.moved _ _)
  case quadB0101 => rw [exec_quadB0101, execQuadB0101] at e; exact .of_next e (.moved _ _)
  case quadB0110 => rw [exec_quadB0110, execQuadB0110] at e; exact .of_next e (.moved _ _)
  case quadB0111 => rw [exec_quadB0111, execQuadB0111] at e; exact .of_next e (.moved _ _)
  case quadB1000 => rw [exec_quadB1000, execQuadB1000] at e; exact .of_next e (.moved _ _)
  case quadB1001 => rw [exec_quadB1001, execQuadB1001] at e; exact .of_next e (.moved _ _)
  case quadB1010 => rw [exec_quadB1010, execQuadB1010] at e; exact .of_next e (.moved _ _)
  case quadB1011 => rw [exec_quadB1011, execQuadB1011] at e; exact .of_next e (.moved _ _)
  case quadB1100 => rw [exec_quadB1100, execQuadB1100] at e; exact .of_next e (.moved _ _)
  case quadB1101 => rw [exec_quadB1101, execQuadB1101] at e; exact .of_next e (.moved _ _)
  case quadB1110 => rw [exec_quadB1110, execQuadB1110] at e; exact .of_next e (.moved _ _)
  case quadB1111 => rw [exec_quadB1111, execQuadB1111] at e; exact .of_next e (.moved _ _)
  case pairOne00 => rw [exec_pairOne00, execPairOne00] at e; exact .of_next e (.moved _ _)
  case pairOne01 => rw [exec_pairOne01, execPairOne01] at e; exact .of_next e (.moved _ _)
  case pairOne10 => rw [exec_pairOne10, execPairOne10] at e; exact .of_next e (.moved _ _)
  case pairOne11 => rw [exec_pairOne11, execPairOne11] at e; exact .of_next e (.moved _ _)
  case huffPair0 => rw [exec_huffPair0, execHuffPair0] at e; exact runRet_answers ((pair _).mono fun _ => Parses.both) e
  case huffPair1 => rw [exec_huffPair1, execHuffPair1] at e; exact runRet_answers ((pair _).mono fun _ => Parses.both) e
  case huffPair2 => rw [exec_huffPair2, execHuffPair2] at e; exact runRet_answers ((pair _).mono fun _ => Parses.both) e
  case huffPair3 => rw [exec_huffPair3, execHuffPair3] at e; exact runRet_answers ((pair _).mono fun _ => Parses.both) e
  case huffPair4 => rw [exec_huffPair4, execHuffPair4] at e; exact runRet_answers ((pair _).mono fun _ => Parses.both) e
  case huffPair5 => rw [exec_huffPair5, execHuffPair5] at e; exact runRet_answers ((pair _).mono fun _ => Parses.both) e
  case huffPair6 => rw [exec_huffPair6, execHuffPair6] at e; exact runRet_answers ((pair _).mono fun _ => Parses.both) e
  case huffPair7 => rw [exec_huffPair7, execHuffPair7] at e; exact runRet_answers ((pair _).mono fun _ => Parses.both) e
  case huffPair8 => rw [exec_huffPair8, execHuffPair8] at e; exact runRet_answers ((pair _).mono fun _ => Parses.both) e
  case huffPair9 => rw [exec_huffPair9, execHuffPair9] at e; exact runRet_answers ((pair _).mono fun _ => Parses.both) e
  case huffPair10 => rw [exec_huffPair10, execHuffPair10] at e; exact runRet_answers ((pair _).mono fun _ => Parses.both) e
  case huffPair11 => rw [exec_huffPair11, execHuffPair11] at e; exact runRet_answers ((pair _).mono fun _ => Parses.both) e
  case huffPair12 => rw [exec_huffPair12, execHuffPair12] at e; exact runRet_answers ((pair _).mono fun _ => Parses.both) e
  case huffPair13 => rw [exec_huffPair13, execHuffPair13] at e; exact runRet_answers ((pair _).mono fun _ => Parses.both) e
  case huffPair14 => rw [exec_huffPair14, execHuffPair14] at e; exact runRet_answers ((pair _).mono fun _ => Parses.both) e
  case huffPair15 => rw [exec_huffPair15, execHuffPair15] at e; exact runRet_answers ((pair _).mono fun _ => Parses.both) e
  case huffPair16 => rw [exec_huffPair16, execHuffPair16] at e; exact runRet_answers ((pair _).mono fun _ => Parses.both) e
  case huffPair17 => rw [exec_huffPair17, execHuffPair17] at e; exact runRet_answers ((pair _).mono fun _ => Parses.both) e
  case huffPair18 => rw [exec_huffPair18, execHuffPair18] at e; exact runRet_answers ((pair _).mono fun _ => Parses.both) e
  case huffPair19 => rw [exec_huffPair19, execHuffPair19] at e; exact runRet_answers ((pair _).mono fun _ => Parses.both) e
  case huffPair20 => rw [exec_huffPair20, execHuffPair20] at e; exact runRet_answers ((pair _).mono fun _ => Parses.both) e
  case huffPair21 => rw [exec_huffPair21, execHuffPair21] at e; exact runRet_answers ((pair _).mono fun _ => Parses.both) e
  case huffPair22 => rw [exec_huffPair22, execHuffPair22] at e; exact runRet_answers ((pair _).mono fun _ => Parses.both) e
  case huffPair23 => rw [exec_huffPair23, execHuffPair23] at e; exact runRet_answers ((pair _).mono fun _ => Parses.both) e
  case huffPair24 => rw [exec_huffPair24, execHuffPair24] at e; exact runRet_answers ((pair _).mono fun _ => Parses.both) e
  case huffPair25 => rw [exec_huffPair25, execHuffPair25] at e; exact runRet_answers ((pair _).mono fun _ => Parses.both) e
  case huffPair26 => rw [exec_huffPair26, execHuffPair26] at e; exact runRet_answers ((pair _).mono fun _ => Parses.both) e
  case huffPair27 => rw [exec_huffPair27, execHuffPair27] at e; exact runRet_answers ((pair _).mono fun _ => Parses.both) e
  case huffPair28 => rw [exec_huffPair28, execHuffPair28] at e; exact runRet_answers ((pair _).mono fun _ => Parses.both) e
  case huffPair29 => rw [exec_huffPair29, execHuffPair29] at e; exact runRet_answers ((pair _).mono fun _ => Parses.both) e
  case huffPair30 => rw [exec_huffPair30, execHuffPair30] at e; exact runRet_answers ((pair _).mono fun _ => Parses.both) e
  case huffPair31 => rw [exec_huffPair31, execHuffPair31] at e; exact runRet_answers ((pair _).mono fun _ => Parses.both) e
  case causeFrameSize => rw [exec_causeFrameSize, execCauseFrameSize] at e; exact .of_next e ⟨s, ⟨rfl, id, id⟩, fun _ => rfl, .inr ⟨_, _, by decide, rfl⟩⟩
  case causeMainSize => rw [exec_causeMainSize, execCauseMainSize] at e; exact .of_next e ⟨s, ⟨rfl, id, id⟩, fun _ => rfl, .inr ⟨_, _, by decide, rfl⟩⟩
  case causeBitsOverrun => rw [exec_causeBitsOverrun, execCauseBitsOverrun] at e; exact .of_next e ⟨s, ⟨rfl, id, id⟩, fun _ => rfl, .inr ⟨_, _, by decide, rfl⟩⟩
  case causeScfCount => rw [exec_causeScfCount, execCauseScfCount] at e; exact .of_next e ⟨s, ⟨rfl, id, id⟩, fun _ => rfl, .inr ⟨_, _, by decide, rfl⟩⟩
  case causeHuffTableReserved => rw [exec_causeHuffTableReserved, execCauseHuffTableReserved] at e; exact .of_next e ⟨s, ⟨rfl, id, id⟩, fun _ => rfl, .inr ⟨_, _, by decide, rfl⟩⟩
  case causeHuffIllegal => rw [exec_causeHuffIllegal, execCauseHuffIllegal] at e; exact .of_next e ⟨s, ⟨rfl, id, id⟩, fun _ => rfl, .inr ⟨_, _, by decide, rfl⟩⟩
  case causeLineRange => rw [exec_causeLineRange, execCauseLineRange] at e; exact .of_next e ⟨s, ⟨rfl, id, id⟩, fun _ => rfl, .inr ⟨_, _, by decide, rfl⟩⟩
  case causeRegionRange => rw [exec_causeRegionRange, execCauseRegionRange] at e; exact .of_next e ⟨s, ⟨rfl, id, id⟩, fun _ => rfl, .inr ⟨_, _, by decide, rfl⟩⟩
  case causeStereoBlockMismatch => rw [exec_causeStereoBlockMismatch, execCauseStereoBlockMismatch] at e; exact .of_next e ⟨s, ⟨rfl, id, id⟩, fun _ => rfl, .inr ⟨_, _, by decide, rfl⟩⟩
  case causeSiTruncated => rw [exec_causeSiTruncated, execCauseSiTruncated] at e; exact .of_next e ⟨s, ⟨rfl, id, id⟩, fun _ => rfl, .inr ⟨_, _, by decide, rfl⟩⟩
  case causeMainTruncated => rw [exec_causeMainTruncated, execCauseMainTruncated] at e; exact .of_next e ⟨s, ⟨rfl, id, id⟩, fun _ => rfl, .inr ⟨_, _, by decide, rfl⟩⟩
  case causeRsvInsufficient => rw [exec_causeRsvInsufficient, execCauseRsvInsufficient] at e; exact .of_next e ⟨s, ⟨rfl, id, id⟩, fun _ => rfl, .inr ⟨_, _, by decide, rfl⟩⟩

end Sys2Proof.Machine
end

