-- ==== Sys2Proof/Laws/Float32.lean ====
section
/-! SUPPORT. Zero in `F`: products with a zero, sums of zeros; every table entry is finite. -/

namespace Sys2Proof.Machine

/-- One of the two zeros. -/
def IsZero (x : F32) : Prop := x = 0#32 ∨ x = 0x80000000#32

theorem IsZero.cases {P : F32 → Prop} {x : F32} (h : IsZero x) (h0 : P 0#32) (h1 : P 0x80000000#32) : P x := by
  rcases h with rfl | rfl
  · exact h0
  · exact h1

theorem IsZero.neg {x : F32} (h : IsZero x) : IsZero (fNeg x) := h.cases (P := fun x => IsZero (fNeg x)) (.inr rfl) (.inl rfl)

/-- A zero times a finite value is a zero whose sign is the product of the signs. -/
theorem fMul_zero {x y : F32} (hx : IsZero x) (hy : fFinite y = true) : fMul x y = fPack (fSign x != fSign y) 0 := by
  have hn : fNan y = false := by
    simp only [fFinite, fNan, bne_iff_ne] at hy ⊢
    simp [hy]
  have hr : ∀ b, fRound b (0 * fUnits y) 149 = fPack b 0 := fun b => by rw [Nat.zero_mul]; cases b <;> decide +kernel
  have hu : fUnits x = 0 := hx.cases (P := fun x => fUnits x = 0) (by decide) (by decide)
  have hf : fFinite x = true := hx.cases (P := fun x => fFinite x = true) (by decide) (by decide)
  have hm : fNan x = false := hx.cases (P := fun x => fNan x = false) (by decide) (by decide)
  simp only [fMul, hm, hn, hf, hy, hu, hr]
  rfl

theorem fMul_zero_isZero {x y : F32} (hx : IsZero x) (hy : fFinite y = true) : IsZero (fMul x y) := by
  rw [fMul_zero hx hy]
  cases fSign x != fSign y
  · exact .inl rfl
  · exact .inr rfl

theorem fMul_comm (x y : F32) : fMul x y = fMul y x := by
  have hs : (fSign x != fSign y) = (fSign y != fSign x) := by cases fSign x <;> cases fSign y <;> rfl
  simp only [fMul, hs, Bool.or_comm (fNan x), Bool.or_comm (!fFinite x), Nat.mul_comm (fUnits x),
    Bool.or_comm (decide (fUnits x = 0))]

/-- A positive zero times a finite value without a sign is a positive zero. -/
theorem fMul_pos_zero {y : F32} (hy : fFinite y = true) (hs : fSign y = false) : fMul 0#32 y = 0#32 := by
  rw [fMul_zero (.inl rfl) hy, hs]; rfl

/-- A sum that starts from the positive zero stays it. -/
theorem fAdd_zero {x : F32} (h : IsZero x) : fAdd 0#32 x = 0#32 :=
  h.cases (P := fun x => fAdd 0#32 x = 0#32) (by decide +kernel) (by decide +kernel)

theorem fSum_succ (n : Nat) (f : Nat → F32) : fSum (n + 1) f = fAdd (fSum n f) (f n) := by
  rw [fSum, List.range_succ, List.foldl_append, List.foldl_cons, List.foldl_nil, fSum]

theorem fSum_congr (n : Nat) (f g : Nat → F32) (h : ∀ i, i < n → f i = g i) : fSum n f = fSum n g := by
  induction n with
  | zero => rw [fSum, fSum, List.range_zero, List.foldl_nil, List.foldl_nil]
  | succ n ih => rw [fSum_succ, fSum_succ, ih fun i hi => h i (by omega), h n (by omega)]

theorem fSum_zero {n : Nat} {f : Nat → F32} (h : ∀ i, i < n → IsZero (f i)) : fSum n f = 0#32 := by
  unfold fSum
  induction n with
  | zero => rfl
  | succ n ih =>
    rw [List.range_succ, List.foldl_append, ih fun i hi => h i (by omega)]
    exact fAdd_zero (h n (by omega))

/-! ### The tables -/

theorem fNeg_finite (x : F32) : fFinite (fNeg x) = fFinite x := by
  have : fExp (fNeg x) = fExp x := by
    simp only [fExp, fNeg]
    congr 1
    ext i hi
    simp only [BitVec.getElem_extractLsb', BitVec.getLsbD_xor]
    have : (0x80000000#32).getLsbD (23 + i) = false := by
      have hi : i < 8 := hi
      interval_cases i <;> rfl
    simp [this]
  rw [fFinite, fFinite, this]

theorem getD_finite {l : List F32} (h : l.all fFinite = true) (j : Nat) : fFinite (l.getD j 0#32) = true := by
  by_cases hj : j < l.length
  · rw [List.getD_eq_getElem _ _ hj]
    exact List.all_eq_true.1 h _ (List.getElem_mem hj)
  · rw [List.getD_eq_default _ _ (by omega)]; rfl

theorem getD_positive {l : List F32} (h : (l.all fun x => !fSign x) = true) (j : Nat) : fSign (l.getD j 0#32) = false := by
  by_cases hj : j < l.length
  · rw [List.getD_eq_getElem _ _ hj]
    simpa using List.all_eq_true.1 h _ (List.getElem_mem hj)
  · rw [List.getD_eq_default _ _ (by omega)]; rfl

theorem cosQuarter72_finite (j : Nat) : fFinite (cosQuarter72 j) = true := getD_finite (by decide) j

theorem cosQuarter64_finite (j : Nat) : fFinite (cosQuarter64 j) = true := getD_finite (by decide) j

theorem cosWave_finite {q : Nat} {c : Nat → F32} (h : ∀ j, fFinite (c j) = true) (a : Nat) : fFinite (cosWave q c a) = true := by
  simp only [cosWave]
  split_ifs <;> simp only [fNeg_finite, h]

theorem cos36_finite (m p : Nat) : fFinite (cos36 m p) = true := cosWave_finite cosQuarter72_finite _

theorem cos12_finite (m p : Nat) : fFinite (cos12 m p) = true := cosWave_finite cosQuarter72_finite _

theorem nwin_finite (i k : Nat) : fFinite (nwin i k) = true := cosWave_finite cosQuarter64_finite _

theorem sin72_finite (a : Nat) : fFinite (sin72 a) = true := by
  unfold sin72; split <;> exact cosQuarter72_finite _

theorem sin72_positive (a : Nat) : fSign (sin72 a) = false := by
  unfold sin72; split <;> exact getD_positive (by decide) _

/-- A window entry is a sine, 0 or 1. -/
theorem imdctWin_cases {P : F32 → Prop} (hs : ∀ a, P (sin72 a)) (h0 : P 0#32) (h1 : P 0x3F800000#32) (bt : BlockType) (p : Nat) :
    P (imdctWin bt p) := by
  cases bt
  · exact hs _
  · rw [imdctWin]
    split
    · exact hs _
    · split
      · exact h1
      · split
        · exact hs _
        · exact h0
  · rw [imdctWin]
    split
    · exact hs _
    · exact h0
  · rw [imdctWin]
    split
    · exact h0
    · split
      · exact hs _
      · split
        · exact h1
        · exact hs _

theorem imdctWin_finite (bt : BlockType) (p : Nat) : fFinite (imdctWin bt p) = true :=
  imdctWin_cases (P := fun x => fFinite x = true) sin72_finite rfl rfl bt p

/-- The window has no negative entry. -/
theorem imdctWin_positive (bt : BlockType) (p : Nat) : fSign (imdctWin bt p) = false :=
  imdctWin_cases (P := fun x => fSign x = false) sin72_positive rfl rfl bt p

theorem synthD_finite (i : Nat) : fFinite (synthD i) = true := by
  unfold synthD; split
  · assumption
  · decide

theorem tabCs_finite : ∀ i, i < 8 → fFinite (tabCs i) = true ∧ fSign (tabCs i) = false := by decide +kernel

theorem tabCa_finite : ∀ i, i < 8 → fFinite (tabCa i) = true ∧ fSign (tabCa i) = true := by decide +kernel

theorem invSqrt2_finite : fFinite invSqrt2 = true ∧ fSign invSqrt2 = false := by decide +kernel

theorem isRatio_finite (p : Nat) : fFinite (isRatio p).1 = true ∧ fFinite (isRatio p).2 = true := by
  unfold isRatio
  by_cases h : p < 7
  · interval_cases p <;> decide
  · rw [List.getD_eq_default _ _ (by simp; omega)]; decide

/-! ### Images of integers -/

theorem fPack_toNat (neg : Bool) {m : Nat} (h : m < 2 ^ 31) : (fPack neg m).toNat = if neg then m + 2 ^ 31 else m := by
  rw [fPack, BitVec.toNat_ofNat, Nat.mod_eq_of_lt]
  split <;> omega

theorem fPack_exp (neg : Bool) {m : Nat} (h : m < 2 ^ 31) : fExp (fPack neg m) = m / 2 ^ 23 := by
  rw [fExp, BitVec.extractLsb'_toNat, fPack_toNat neg h, Nat.shiftRight_eq_div_pow]
  split <;> omega

theorem fPack_frac (neg : Bool) {m : Nat} (h : m < 2 ^ 31) : fFrac (fPack neg m) = m % 2 ^ 23 := by
  rw [fFrac, BitVec.extractLsb'_toNat, fPack_toNat neg h, Nat.shiftRight_eq_div_pow]
  split <;> omega

theorem fPack_sign (neg : Bool) {m : Nat} (h : m < 2 ^ 31) : fSign (fPack neg m) = neg := by
  rw [fSign, ← BitVec.testBit_toNat, fPack_toNat neg h, Nat.testBit_eq_decide_div_mod_eq]
  cases neg
  · simp; omega
  · simp; omega

/-- The image of a positive integer below `2^24` is exact. -/
theorem roundMag_int {n : Nat} (h0 : 0 < n) (h : n < 2 ^ 24) :
    roundMag (n * 2 ^ 149) 0 = (Nat.log2 n + 126) * 2 ^ 23 + n * 2 ^ (23 - Nat.log2 n) ∧
      2 ^ 23 ≤ n * 2 ^ (23 - Nat.log2 n) ∧ n * 2 ^ (23 - Nat.log2 n) < 2 ^ 24 ∧ Nat.log2 n < 24 := by
  have hl : Nat.log2 n < 24 := (Nat.log2_lt (by omega)).2 h
  have h1 : 2 ^ Nat.log2 n ≤ n := Nat.log2_self_le (by omega)
  have h2 : n < 2 ^ (Nat.log2 n + 1) := Nat.lt_log2_self
  have e1 : 2 ^ Nat.log2 n * 2 ^ (23 - Nat.log2 n) = 2 ^ 23 := by rw [← Nat.pow_add]; congr 1; omega
  have m1 : 2 ^ 23 ≤ n * 2 ^ (23 - Nat.log2 n) := by rw [← e1]; exact Nat.mul_le_mul_right _ h1
  have m2 : n * 2 ^ (23 - Nat.log2 n) < 2 ^ 24 := by
    have : 2 ^ (Nat.log2 n + 1) * 2 ^ (23 - Nat.log2 n) = 2 ^ 24 := by rw [← Nat.pow_add]; congr 1; omega
    rw [← this]; exact Nat.mul_lt_mul_of_pos_right h2 (Nat.pow_pos (by decide))
  refine ⟨?_, m1, m2, hl⟩
  have hb : bitLength (n * 2 ^ 149) = Nat.log2 n + 150 := by
    rw [bitLength, if_neg (by positivity)]
    have : Nat.log2 (n * 2 ^ 149) = Nat.log2 n + 149 := by
      rw [Nat.log2_eq_iff (by positivity)]
      constructor
      · rw [Nat.pow_add]; exact Nat.mul_le_mul_right _ h1
      · rw [show Nat.log2 n + 149 + 1 = (Nat.log2 n + 1) + 149 by omega, Nat.pow_add]; exact Nat.mul_lt_mul_of_pos_right h2 (by positivity)
    rw [this]
  have hs : n * 2 ^ 149 = n * 2 ^ (23 - Nat.log2 n) * 2 ^ (Nat.log2 n + 126) := by
    rw [Nat.mul_assoc, ← Nat.pow_add]; congr 2; omega
  simp only [roundMag, hb]
  rw [show max 0 (Nat.log2 n + 150 - 24) = Nat.log2 n + 126 by omega]
  have hr : roundShift (n * 2 ^ 149) (Nat.log2 n + 126) = n * 2 ^ (23 - Nat.log2 n) := by
    have p : 0 < 2 ^ (Nat.log2 n + 126) := by positivity
    rw [hs]
    simp only [roundShift]
    rw [Nat.mul_div_cancel _ p, Nat.mul_mod_left, if_neg]
    simp [p.ne]
  rw [hr, if_neg]
  · simp
  · unfold infBits; omega

/-- The image of an integer, in units. -/
theorem fOfInt_units {q : Int} (h : q.natAbs < 2 ^ 24) (h0 : q ≠ 0) :
    fUnits (fOfInt q) = q.natAbs * 2 ^ 149 ∧ fFinite (fOfInt q) = true ∧ fSign (fOfInt q) = decide (q < 0) := by
  obtain ⟨e, m1, m2, hl⟩ := roundMag_int (n := q.natAbs) (by omega) h
  rw [fOfInt, if_neg h0, fRound, e]
  generalize hM : q.natAbs * 2 ^ (23 - Nat.log2 q.natAbs) = M at *
  generalize hL : Nat.log2 q.natAbs = L at *
  have hlt : (L + 126) * 2 ^ 23 + M < 2 ^ 31 := by omega
  have he := fPack_exp (decide (q < 0)) hlt
  have hf := fPack_frac (decide (q < 0)) hlt
  rw [show ((L + 126) * 2 ^ 23 + M) / 2 ^ 23 = L + 127 by omega] at he
  rw [show ((L + 126) * 2 ^ 23 + M) % 2 ^ 23 = M - 2 ^ 23 by omega] at hf
  refine ⟨?_, ?_, fPack_sign _ hlt⟩
  · rw [fUnits, he, hf, if_neg (by omega), show M - 2 ^ 23 + 2 ^ 23 = M by omega, ← hM, Nat.mul_assoc, ← Nat.pow_add]
    congr 2; omega
  · rw [fFinite, he]; simp; omega

/-- The other sign is the negation. -/
theorem fPack_neg (neg : Bool) {m : Nat} (h : m < 2 ^ 31) : fPack (!neg) m = fNeg (fPack neg m) := by
  have hx : BitVec.ofNat 32 (m + 2 ^ 31) = BitVec.ofNat 32 m ^^^ 0x80000000#32 := by
    have hm : m % 2 ^ 32 = m := Nat.mod_eq_of_lt (by omega)
    refine BitVec.eq_of_toNat_eq ?_
    rw [BitVec.toNat_ofNat, BitVec.toNat_xor, BitVec.toNat_ofNat, hm, Nat.mod_eq_of_lt (by omega)]
    refine Nat.eq_of_testBit_eq fun k => ?_
    rw [Nat.testBit_xor, show (0x80000000#32).toNat = 2 ^ 31 from rfl, Nat.testBit_two_pow, Nat.add_comm]
    rcases Nat.lt_trichotomy k 31 with l | rfl | l
    · rw [Nat.testBit_two_pow_add_gt l]; rw [decide_eq_false (by omega), Bool.xor_false]
    · rw [Nat.testBit_two_pow_add_eq, Nat.testBit_lt_two_pow h]; simp
    · have g : 2 ^ 32 ≤ 2 ^ k := Nat.pow_le_pow_right (by decide) l
      rw [Nat.testBit_lt_two_pow (by omega), Nat.testBit_lt_two_pow (by omega), decide_eq_false (by omega)]; rfl
  cases neg
  · exact hx
  · simp only [fPack, fNeg, Bool.not_true, Bool.false_eq_true, if_false, if_true, hx, BitVec.xor_assoc, BitVec.xor_self,
      BitVec.xor_zero]

theorem roundMag_lt (n k : Nat) : roundMag n k < 2 ^ 31 := by
  unfold roundMag
  dsimp only
  split
  · decide
  · rename_i h
    exact (not_le.1 h).trans (by decide)

/-- The image of the negative of an integer that is not 0. -/
theorem fOfInt_neg {q : Int} (h : q ≠ 0) : fOfInt (-q) = fNeg (fOfInt q) := by
  have hd : decide (-q < 0) = !decide (q < 0) := by
    rcases lt_trichotomy q 0 with l | l | l
    · simp [l]; omega
    · exact absurd l h
    · simp [l]; omega
  rw [fOfInt, if_neg (by omega), fOfInt, if_neg h, Int.natAbs_neg, fRound, fRound, hd, fPack_neg _ (roundMag_lt _ _)]

/-- A value that is the image of an integer gives it back. -/
theorem fToInt_fOfInt_of_lt {q : Int} (h : q.natAbs < 2 ^ 24) : fToInt (fOfInt q) = some q := by
  by_cases h0 : q = 0
  · subst h0; decide +kernel
  · obtain ⟨hu, hf, hs⟩ := fOfInt_units h h0
    rw [fToInt, hf, hu, Nat.mul_mod_left, if_pos (by rfl), fInt, hs, hu]
    congr 1
    by_cases hq : q < 0
    · rw [if_pos (by simpa using hq)]; omega
    · rw [if_neg (by simpa using hq)]; omega

end Sys2Proof.Machine
end

