-- ==== Sys2Proof/Laws/Lines.lean ====
section
/-! SUPPORT. Reading and writing the files that two indices select: `XR`, `SI.*`, `SCF_L`, `SCF_S`, `STORE`, `VVEC`. -/

namespace Sys2Proof.Machine

theorem Two.get_set_get {α : Type} (p : Two (Two α)) (gr ch gr' ch' : Fin 2) (x : α) :
    ((p.set gr ((p.get gr).set ch x)).get gr').get ch' = if gr' = gr ∧ ch' = ch then x else (p.get gr').get ch' := by
  rw [Two.get_set]
  split
  · subst_vars
    rw [Two.get_set]
    by_cases h : ch = ch' <;> simp [h, eq_comm]
  · rw [if_neg fun h => ‹¬_› h.1.symm]

/-- A read of `XR[gr'][ch']` after a write of `XR[gr][ch]`. -/
theorem State.lines_setLines (s : State) (gr ch gr' ch' : Fin 2) (v : Lines) :
    (s.setLines gr ch v).lines gr' ch' = if gr' = gr ∧ ch' = ch then v else s.lines gr' ch' := Two.get_set_get ..

@[simp] theorem State.lines_setLines_same (s : State) (gr ch : Fin 2) (v : Lines) : (s.setLines gr ch v).lines gr ch = v := by
  simp [State.lines_setLines]

theorem State.lines_setLines_other (s : State) {gr ch gr' ch' : Fin 2} (v : Lines) (h : ¬(gr' = gr ∧ ch' = ch)) :
    (s.setLines gr ch v).lines gr' ch' = s.lines gr' ch' := by
  rw [State.lines_setLines, if_neg h]

/-- A line after its row is tabulated anew. -/
theorem State.line_setLines_tab (s : State) (gr ch : Fin 2) (f : Nat → F32) {i : Nat} (h : i < 576) :
    (s.setLines gr ch (.tab 576 f)).line gr ch i = f i := by
  rw [State.line, State.lines_setLines_same, Bank.get_tab _ _ h]

theorem State.line_of_le (s : State) (gr ch : Fin 2) {i : Nat} (h : 576 ≤ i) : s.line gr ch i = 0#32 := Bank.get_of_le _ _ h

theorem State.gran_setGran (s : State) (gr ch gr' ch' : Fin 2) (g : Gran) :
    (s.setGran gr ch g).gran gr' ch' = if gr' = gr ∧ ch' = ch then g else s.gran gr' ch' := Two.get_set_get ..

@[simp] theorem State.gran_setGran_same (s : State) (gr ch : Fin 2) (g : Gran) : (s.setGran gr ch g).gran gr ch = g := by
  simp [State.gran_setGran]

theorem State.scfLong_setScfLong (s : State) (gr ch gr' ch' : Fin 2) (b b' : Nat) (v : BitVec 4) (h : b < 22) :
    (s.setScfLong gr ch b v).scfLong gr' ch' b' = if gr' = gr ∧ ch' = ch ∧ b' = b then v else s.scfLong gr' ch' b' := by
  simp only [State.scfLong, State.setScfLong, Two.get_set_get]
  by_cases hg : gr' = gr ∧ ch' = ch
  · obtain ⟨rfl, rfl⟩ := hg
    rw [if_pos ⟨rfl, rfl⟩]
    by_cases hb : b' = b
    · subst hb; rw [if_pos ⟨rfl, rfl, rfl⟩, Bank.get_set_same _ _ _ h]
    · rw [if_neg fun k => hb k.2.2, Bank.get_set_other _ _ _ fun k => hb k.symm]
  · rw [if_neg hg, if_neg fun k => hg ⟨k.1, k.2.1⟩]

/-- Entry `k` of `SCF_S[gr][ch]`, in the order band, window. -/
def State.scfCell (s : State) (gr ch : Fin 2) (k : Nat) : BitVec 4 := ((s.scfS.get gr).get ch).get k 0

theorem State.scfShort_eq (s : State) (gr ch : Fin 2) (b win : Nat) : s.scfShort gr ch b win = s.scfCell gr ch (3 * b + win) := rfl

theorem State.scfCell_setScfShort (s : State) (gr ch gr' ch' : Fin 2) (b win k : Nat) (v : BitVec 4) (h : 3 * b + win < 39) :
    (s.setScfShort gr ch b win v).scfCell gr' ch' k =
      if gr' = gr ∧ ch' = ch ∧ k = 3 * b + win then v else s.scfCell gr' ch' k := by
  simp only [State.scfCell, State.setScfShort, Two.get_set_get]
  by_cases hg : gr' = gr ∧ ch' = ch
  · obtain ⟨rfl, rfl⟩ := hg
    rw [if_pos ⟨rfl, rfl⟩]
    by_cases hb : k = 3 * b + win
    · subst hb; rw [if_pos ⟨rfl, rfl, rfl⟩, Bank.get_set_same _ _ _ h]
    · rw [if_neg fun k => hb k.2.2, Bank.get_set_other _ _ _ fun k => hb k.symm]
  · rw [if_neg hg, if_neg fun k => hg ⟨k.1, k.2.1⟩]

/-- Changing other registers leaves a row of lines alone. -/
theorem State.lines_congr {s t : State} (h : t.xr = s.xr) (gr ch : Fin 2) : t.lines gr ch = s.lines gr ch := by
  rw [State.lines, State.lines, h]

theorem State.line_congr {s t : State} (h : t.xr = s.xr) (gr ch : Fin 2) (i : Nat) : t.line gr ch i = s.line gr ch i := by
  rw [State.line, State.line, State.lines_congr h]

end Sys2Proof.Machine
end

