-- ==== Sys2Proof/Laws/Pcm.lean ====
section
/-! SUPPORT. What one sample's store does to `PCM`, byte by byte (46_synthesis_pcm R257, R258; 20_memory R69). -/

namespace Sys2Proof.Machine

theorem read_storeSample (m : Memory) (base : Nat) (u : BitVec 16) (a : Nat) :
    Memory.read (storeSample base u m) a =
      if a = base + 1 then some (u.extractLsb' 8 8) else if a = base then some (u.extractLsb' 0 8) else Memory.read m a := by
  rw [storeSample, Memory.read_write, Memory.read_write]

theorem pcmBase_eq (gr c : Fin 2) (t : Nat) : pcmBase gr t c = 2304 * gr.val + 4 * t + 2 * c.val := rfl

theorem outputs_cases (h : Hdr) (ch : Fin 2) : outputs h ch = [0, 1] ∨ outputs h ch = [ch] := by
  unfold outputs; split <;> simp

/-- The two bytes of a sample on each of its output channels. -/
theorem packSample_hit (gr ch : Fin 2) (t : Nat) (x : F32) (s : State) (c : Fin 2) (hm : c ∈ outputs s.hdr ch) :
    (packSample gr ch t x s).pcm.read (pcmBase gr t c) = some ((pcmConvert x).extractLsb' 0 8) ∧
    (packSample gr ch t x s).pcm.read (pcmBase gr t c + 1) = some ((pcmConvert x).extractLsb' 8 8) := by
  unfold packSample
  rcases outputs_cases s.hdr ch with e | e <;> rw [e] at hm ⊢ <;>
    simp only [List.foldl_cons, List.foldl_nil, read_storeSample, pcmBase_eq]
  · have : c = 0 ∨ c = 1 := by omega
    rcases this with rfl | rfl <;> constructor <;> simp <;> omega
  · obtain rfl : c = ch := by simpa using hm
    constructor <;> simp

/-- Every other byte is unchanged. -/
theorem packSample_miss (gr ch : Fin 2) (t : Nat) (x : F32) (s : State) (a : Nat)
    (h : ∀ c ∈ outputs s.hdr ch, a ≠ pcmBase gr t c ∧ a ≠ pcmBase gr t c + 1) :
    (packSample gr ch t x s).pcm.read a = s.pcm.read a := by
  unfold packSample
  generalize outputs s.hdr ch = l at *
  simp only
  generalize s.pcm = m at *
  induction l generalizing m with
  | nil => rfl
  | cons c l ih =>
    rw [List.foldl_cons, ih (fun d hd => h d (by simp [hd])), read_storeSample, if_neg (h c (by simp)).2,
      if_neg (h c (by simp)).1]

end Sys2Proof.Machine
end

