-- ==== Sys2Proof/Laws/PerInstr.lean ====
section
/-! SUPPORT. One law per instruction: the first byte of its encoding, which is what the decoder chooses the row (or the group of
rows) by (30_encoding R92, R94; log 2). -/

namespace Sys2Proof.Laws.Selector

/-- The OPID, context or sync byte an instruction's encoding begins with. -/
def first : Instr → Byte
  | .idle => opByte .idle
  | .reset => opByte .reset
  | .frame _ => opByte .frame
  | .loadsi _ => opByte .loadsi
  | .bcRead _ => opByte .bcRead
  | .bcPos => opByte .bcPos
  | .bcSetpos _ => opByte .bcSetpos
  | .rsvCheck => opByte .rsvCheck
  | .rsvRecv _ => opByte .rsvRecv
  | .rsvAppend _ => opByte .rsvAppend
  | .rsvSplice _ => opByte .rsvSplice
  | .scfClear => opByte .scfClear
  | .scfM1 _ _ => opByte .scfM1
  | .scfM2 _ => opByte .scfM2
  | .hufGranule _ _ _ => opByte .hufGranule
  | .hufBig _ _ => opByte .hufBig
  | .hufCnt1 _ _ _ => opByte .hufCnt1
  | .hufPair _ => opByte .hufPair
  | .hufQuad _ => opByte .hufQuad
  | .req _ _ => opByte .req
  | .reord _ _ => opByte .reord
  | .stereo _ => opByte .stereo
  | .antialias _ _ => opByte .antialias
  | .hyb _ _ => opByte .hyb
  | .finv _ _ => opByte .finv
  | .synth _ _ => opByte .synth
  | .pcmPack _ _ _ _ _ => opByte .pcmPack
  | .reqL _ _ _ _ => 0x40#8
  | .reqS _ _ _ _ _ => 0x41#8
  | .stMs _ _ => 0x42#8
  | .stIs _ _ => 0x43#8
  | .imdctL _ _ => 0x44#8
  | .imdctS _ => 0x45#8
  | .ola _ _ _ _ => 0x46#8
  | .pcmConvert _ => 0x47#8
  | .prime _ _ => 0x48#8
  | .getBits _ => 0x49#8
  | .siGroupM1Ws1 _ _ _ _ _ _ _ | .siGroupM1Ws0 _ _ _ _ _ _ _ => 0x50#8
  | .siGroupLsfWs1 _ _ _ _ _ | .siGroupLsfWs0 _ _ _ _ _ => 0x51#8
  | .siHeadM1Mono _ _ _ => 0x52#8
  | .siHeadM1Stereo _ _ _ _ => 0x53#8
  | .siHeadLsfMono _ _ => 0x54#8
  | .siHeadLsfStereo _ _ => 0x55#8
  | .header _ => 0xFF#8
  | .pairItem _ _ _ _ _ _ _ => 0x58#8
  | .quadItem _ _ _ => 0x59#8
  | .scfFieldM1 _ _ _ => 0x5A#8
  | .scfFieldM2 _ _ => 0x5B#8
  | .quadA0000 | .quadA0001 _ | .quadA0010 _ | .quadA0011 _ | .quadA0100 _ | .quadA0101 _ | .quadA0110 _
  | .quadA0111 _ | .quadA1000 _ | .quadA1001 _ | .quadA1010 _ | .quadA1011 _ | .quadA1100 _ | .quadA1101 _
  | .quadA1110 _ | .quadA1111 _ => 0x5C#8
  | .quadB0000 | .quadB0001 _ | .quadB0010 _ | .quadB0011 _ | .quadB0100 _ | .quadB0101 _ | .quadB0110 _
  | .quadB0111 _ | .quadB1000 _ | .quadB1001 _ | .quadB1010 _ | .quadB1011 _ | .quadB1100 _ | .quadB1101 _
  | .quadB1110 _ | .quadB1111 _ => 0x5D#8
  | .pairOne00 | .pairOne01 _ | .pairOne10 _ | .pairOne11 _ _ => 0x5E#8
  | .huffPair0 | .huffPair1 | .huffPair2 | .huffPair3 | .huffPair4 | .huffPair5 | .huffPair6 | .huffPair7
  | .huffPair8 | .huffPair9 | .huffPair10 | .huffPair11 | .huffPair12 | .huffPair13 | .huffPair14 | .huffPair15
  | .huffPair16 | .huffPair17 | .huffPair18 | .huffPair19 | .huffPair20 | .huffPair21 | .huffPair22 | .huffPair23
  | .huffPair24 | .huffPair25 | .huffPair26 | .huffPair27 | .huffPair28 | .huffPair29 | .huffPair30 | .huffPair31 => 0x5F#8
  | .causeFrameSize | .causeMainSize | .causeBitsOverrun | .causeScfCount | .causeHuffTableReserved
  | .causeHuffIllegal | .causeLineRange | .causeRegionRange | .causeStereoBlockMismatch | .causeSiTruncated
  | .causeMainTruncated | .causeRsvInsufficient => 0x60#8

/-- The encoding of `i` begins with `first i`. -/
def Statement (i : Instr) : Prop := ∃ rest, encode i = first i :: rest

theorem idle : Statement .idle := ⟨_, rfl⟩
theorem reset : Statement .reset := ⟨_, rfl⟩
theorem frame : ∀ x0, Statement (.frame x0) := fun _ => ⟨_, rfl⟩
theorem loadsi : ∀ x0, Statement (.loadsi x0) := fun _ => ⟨_, rfl⟩
theorem bcRead : ∀ x0, Statement (.bcRead x0) := fun _ => ⟨_, rfl⟩
theorem bcPos : Statement .bcPos := ⟨_, rfl⟩
theorem bcSetpos : ∀ x0, Statement (.bcSetpos x0) := fun _ => ⟨_, rfl⟩
theorem rsvCheck : Statement .rsvCheck := ⟨_, rfl⟩
theorem rsvRecv : ∀ x0, Statement (.rsvRecv x0) := fun _ => ⟨_, rfl⟩
theorem rsvAppend : ∀ x0, Statement (.rsvAppend x0) := fun _ => ⟨_, rfl⟩
theorem rsvSplice : ∀ x0, Statement (.rsvSplice x0) := fun _ => ⟨_, rfl⟩
theorem scfClear : Statement .scfClear := ⟨_, rfl⟩
theorem scfM1 : ∀ x0 x1, Statement (.scfM1 x0 x1) := fun _ _ => ⟨_, rfl⟩
theorem scfM2 : ∀ x0, Statement (.scfM2 x0) := fun _ => ⟨_, rfl⟩
theorem hufGranule : ∀ x0 x1 x2, Statement (.hufGranule x0 x1 x2) := fun _ _ _ => ⟨_, rfl⟩
theorem hufBig : ∀ x0 x1, Statement (.hufBig x0 x1) := fun _ _ => ⟨_, rfl⟩
theorem hufCnt1 : ∀ x0 x1 x2, Statement (.hufCnt1 x0 x1 x2) := fun _ _ _ => ⟨_, rfl⟩
theorem hufPair : ∀ x0, Statement (.hufPair x0) := fun _ => ⟨_, rfl⟩
theorem hufQuad : ∀ x0, Statement (.hufQuad x0) := fun _ => ⟨_, rfl⟩
theorem req : ∀ x0 x1, Statement (.req x0 x1) := fun _ _ => ⟨_, rfl⟩
theorem reord : ∀ x0 x1, Statement (.reord x0 x1) := fun _ _ => ⟨_, rfl⟩
theorem stereo : ∀ x0, Statement (.stereo x0) := fun _ => ⟨_, rfl⟩
theorem antialias : ∀ x0 x1, Statement (.antialias x0 x1) := fun _ _ => ⟨_, rfl⟩
theorem hyb : ∀ x0 x1, Statement (.hyb x0 x1) := fun _ _ => ⟨_, rfl⟩
theorem finv : ∀ x0 x1, Statement (.finv x0 x1) := fun _ _ => ⟨_, rfl⟩
theorem synth : ∀ x0 x1, Statement (.synth x0 x1) := fun _ _ => ⟨_, rfl⟩
theorem pcmPack : ∀ x0 x1 x2 x3 x4, Statement (.pcmPack x0 x1 x2 x3 x4) := fun _ _ _ _ _ => ⟨_, rfl⟩
theorem reqL : ∀ x0 x1 x2 x3, Statement (.reqL x0 x1 x2 x3) := fun _ _ _ _ => ⟨_, rfl⟩
theorem reqS : ∀ x0 x1 x2 x3 x4, Statement (.reqS x0 x1 x2 x3 x4) := fun _ _ _ _ _ => ⟨_, rfl⟩
theorem stMs : ∀ x0 x1, Statement (.stMs x0 x1) := fun _ _ => ⟨_, rfl⟩
theorem stIs : ∀ x0 x1, Statement (.stIs x0 x1) := fun _ _ => ⟨_, rfl⟩
theorem imdctL : ∀ x0 x1, Statement (.imdctL x0 x1) := fun _ _ => ⟨_, rfl⟩
theorem imdctS : ∀ x0, Statement (.imdctS x0) := fun _ => ⟨_, rfl⟩
theorem ola : ∀ x0 x1 x2 x3, Statement (.ola x0 x1 x2 x3) := fun _ _ _ _ => ⟨_, rfl⟩
theorem pcmConvert : ∀ x0, Statement (.pcmConvert x0) := fun _ => ⟨_, rfl⟩
theorem prime : ∀ x0 x1, Statement (.prime x0 x1) := fun _ _ => ⟨_, rfl⟩
theorem getBits : ∀ x0, Statement (.getBits x0) := fun _ => ⟨_, rfl⟩
theorem siGroupM1Ws1 : ∀ x0 x1 x2 x3 x4 x5 x6, Statement (.siGroupM1Ws1 x0 x1 x2 x3 x4 x5 x6) := fun _ _ _ _ _ _ _ => ⟨_, rfl⟩
theorem siGroupM1Ws0 : ∀ x0 x1 x2 x3 x4 x5 x6, Statement (.siGroupM1Ws0 x0 x1 x2 x3 x4 x5 x6) := fun _ _ _ _ _ _ _ => ⟨_, rfl⟩
theorem siGroupLsfWs1 : ∀ x0 x1 x2 x3 x4, Statement (.siGroupLsfWs1 x0 x1 x2 x3 x4) := fun _ _ _ _ _ => ⟨_, rfl⟩
theorem siGroupLsfWs0 : ∀ x0 x1 x2 x3 x4, Statement (.siGroupLsfWs0 x0 x1 x2 x3 x4) := fun _ _ _ _ _ => ⟨_, rfl⟩
theorem siHeadM1Mono : ∀ x0 x1 x2, Statement (.siHeadM1Mono x0 x1 x2) := fun _ _ _ => ⟨_, rfl⟩
theorem siHeadM1Stereo : ∀ x0 x1 x2 x3, Statement (.siHeadM1Stereo x0 x1 x2 x3) := fun _ _ _ _ => ⟨_, rfl⟩
theorem siHeadLsfMono : ∀ x0 x1, Statement (.siHeadLsfMono x0 x1) := fun _ _ => ⟨_, rfl⟩
theorem siHeadLsfStereo : ∀ x0 x1, Statement (.siHeadLsfStereo x0 x1) := fun _ _ => ⟨_, rfl⟩
theorem header : ∀ x0, Statement (.header x0) := fun _ => ⟨_, rfl⟩
theorem pairItem : ∀ x0 x1 x2 x3 x4 x5 x6, Statement (.pairItem x0 x1 x2 x3 x4 x5 x6) := fun _ _ _ _ _ _ _ => ⟨_, rfl⟩
theorem quadItem : ∀ x0 x1 x2, Statement (.quadItem x0 x1 x2) := fun _ _ _ => ⟨_, rfl⟩
theorem scfFieldM1 : ∀ x0 x1 x2, Statement (.scfFieldM1 x0 x1 x2) := fun _ _ _ => ⟨_, rfl⟩
theorem scfFieldM2 : ∀ x0 x1, Statement (.scfFieldM2 x0 x1) := fun _ _ => ⟨_, rfl⟩
theorem quadA0000 : Statement .quadA0000 := ⟨_, rfl⟩
theorem quadA0001 : ∀ x0, Statement (.quadA0001 x0) := fun _ => ⟨_, rfl⟩
theorem quadA0010 : ∀ x0, Statement (.quadA0010 x0) := fun _ => ⟨_, rfl⟩
theorem quadA0011 : ∀ x0, Statement (.quadA0011 x0) := fun _ => ⟨_, rfl⟩
theorem quadA0100 : ∀ x0, Statement (.quadA0100 x0) := fun _ => ⟨_, rfl⟩
theorem quadA0101 : ∀ x0, Statement (.quadA0101 x0) := fun _ => ⟨_, rfl⟩
theorem quadA0110 : ∀ x0, Statement (.quadA0110 x0) := fun _ => ⟨_, rfl⟩
theorem quadA0111 : ∀ x0, Statement (.quadA0111 x0) := fun _ => ⟨_, rfl⟩
theorem quadA1000 : ∀ x0, Statement (.quadA1000 x0) := fun _ => ⟨_, rfl⟩
theorem quadA1001 : ∀ x0, Statement (.quadA1001 x0) := fun _ => ⟨_, rfl⟩
theorem quadA1010 : ∀ x0, Statement (.quadA1010 x0) := fun _ => ⟨_, rfl⟩
theorem quadA1011 : ∀ x0, Statement (.quadA1011 x0) := fun _ => ⟨_, rfl⟩
theorem quadA1100 : ∀ x0, Statement (.quadA1100 x0) := fun _ => ⟨_, rfl⟩
theorem quadA1101 : ∀ x0, Statement (.quadA1101 x0) := fun _ => ⟨_, rfl⟩
theorem quadA1110 : ∀ x0, Statement (.quadA1110 x0) := fun _ => ⟨_, rfl⟩
theorem quadA1111 : ∀ x0, Statement (.quadA1111 x0) := fun _ => ⟨_, rfl⟩
theorem quadB0000 : Statement .quadB0000 := ⟨_, rfl⟩
theorem quadB0001 : ∀ x0, Statement (.quadB0001 x0) := fun _ => ⟨_, rfl⟩
theorem quadB0010 : ∀ x0, Statement (.quadB0010 x0) := fun _ => ⟨_, rfl⟩
theorem quadB0011 : ∀ x0, Statement (.quadB0011 x0) := fun _ => ⟨_, rfl⟩
theorem quadB0100 : ∀ x0, Statement (.quadB0100 x0) := fun _ => ⟨_, rfl⟩
theorem quadB0101 : ∀ x0, Statement (.quadB0101 x0) := fun _ => ⟨_, rfl⟩
theorem quadB0110 : ∀ x0, Statement (.quadB0110 x0) := fun _ => ⟨_, rfl⟩
theorem quadB0111 : ∀ x0, Statement (.quadB0111 x0) := fun _ => ⟨_, rfl⟩
theorem quadB1000 : ∀ x0, Statement (.quadB1000 x0) := fun _ => ⟨_, rfl⟩
theorem quadB1001 : ∀ x0, Statement (.quadB1001 x0) := fun _ => ⟨_, rfl⟩
theorem quadB1010 : ∀ x0, Statement (.quadB1010 x0) := fun _ => ⟨_, rfl⟩
theorem quadB1011 : ∀ x0, Statement (.quadB1011 x0) := fun _ => ⟨_, rfl⟩
theorem quadB1100 : ∀ x0, Statement (.quadB1100 x0) := fun _ => ⟨_, rfl⟩
theorem quadB1101 : ∀ x0, Statement (.quadB1101 x0) := fun _ => ⟨_, rfl⟩
theorem quadB1110 : ∀ x0, Statement (.quadB1110 x0) := fun _ => ⟨_, rfl⟩
theorem quadB1111 : ∀ x0, Statement (.quadB1111 x0) := fun _ => ⟨_, rfl⟩
theorem pairOne00 : Statement .pairOne00 := ⟨_, rfl⟩
theorem pairOne01 : ∀ x0, Statement (.pairOne01 x0) := fun _ => ⟨_, rfl⟩
theorem pairOne10 : ∀ x0, Statement (.pairOne10 x0) := fun _ => ⟨_, rfl⟩
theorem pairOne11 : ∀ x0 x1, Statement (.pairOne11 x0 x1) := fun _ _ => ⟨_, rfl⟩
theorem huffPair0 : Statement .huffPair0 := ⟨_, rfl⟩
theorem huffPair1 : Statement .huffPair1 := ⟨_, rfl⟩
theorem huffPair2 : Statement .huffPair2 := ⟨_, rfl⟩
theorem huffPair3 : Statement .huffPair3 := ⟨_, rfl⟩
theorem huffPair4 : Statement .huffPair4 := ⟨_, rfl⟩
theorem huffPair5 : Statement .huffPair5 := ⟨_, rfl⟩
theorem huffPair6 : Statement .huffPair6 := ⟨_, rfl⟩
theorem huffPair7 : Statement .huffPair7 := ⟨_, rfl⟩
theorem huffPair8 : Statement .huffPair8 := ⟨_, rfl⟩
theorem huffPair9 : Statement .huffPair9 := ⟨_, rfl⟩
theorem huffPair10 : Statement .huffPair10 := ⟨_, rfl⟩
theorem huffPair11 : Statement .huffPair11 := ⟨_, rfl⟩
theorem huffPair12 : Statement .huffPair12 := ⟨_, rfl⟩
theorem huffPair13 : Statement .huffPair13 := ⟨_, rfl⟩
theorem huffPair14 : Statement .huffPair14 := ⟨_, rfl⟩
theorem huffPair15 : Statement .huffPair15 := ⟨_, rfl⟩
theorem huffPair16 : Statement .huffPair16 := ⟨_, rfl⟩
theorem huffPair17 : Statement .huffPair17 := ⟨_, rfl⟩
theorem huffPair18 : Statement .huffPair18 := ⟨_, rfl⟩
theorem huffPair19 : Statement .huffPair19 := ⟨_, rfl⟩
theorem huffPair20 : Statement .huffPair20 := ⟨_, rfl⟩
theorem huffPair21 : Statement .huffPair21 := ⟨_, rfl⟩
theorem huffPair22 : Statement .huffPair22 := ⟨_, rfl⟩
theorem huffPair23 : Statement .huffPair23 := ⟨_, rfl⟩
theorem huffPair24 : Statement .huffPair24 := ⟨_, rfl⟩
theorem huffPair25 : Statement .huffPair25 := ⟨_, rfl⟩
theorem huffPair26 : Statement .huffPair26 := ⟨_, rfl⟩
theorem huffPair27 : Statement .huffPair27 := ⟨_, rfl⟩
theorem huffPair28 : Statement .huffPair28 := ⟨_, rfl⟩
theorem huffPair29 : Statement .huffPair29 := ⟨_, rfl⟩
theorem huffPair30 : Statement .huffPair30 := ⟨_, rfl⟩
theorem huffPair31 : Statement .huffPair31 := ⟨_, rfl⟩
theorem causeFrameSize : Statement .causeFrameSize := ⟨_, rfl⟩
theorem causeMainSize : Statement .causeMainSize := ⟨_, rfl⟩
theorem causeBitsOverrun : Statement .causeBitsOverrun := ⟨_, rfl⟩
theorem causeScfCount : Statement .causeScfCount := ⟨_, rfl⟩
theorem causeHuffTableReserved : Statement .causeHuffTableReserved := ⟨_, rfl⟩
theorem causeHuffIllegal : Statement .causeHuffIllegal := ⟨_, rfl⟩
theorem causeLineRange : Statement .causeLineRange := ⟨_, rfl⟩
theorem causeRegionRange : Statement .causeRegionRange := ⟨_, rfl⟩
theorem causeStereoBlockMismatch : Statement .causeStereoBlockMismatch := ⟨_, rfl⟩
theorem causeSiTruncated : Statement .causeSiTruncated := ⟨_, rfl⟩
theorem causeMainTruncated : Statement .causeMainTruncated := ⟨_, rfl⟩
theorem causeRsvInsufficient : Statement .causeRsvInsufficient := ⟨_, rfl⟩

end Sys2Proof.Laws.Selector
end

