-- ==== Sys2Proof/Laws/Tables.lean ====
section
/-! SUPPORT. The band-edge rows: they rise, so the band of a line is unique; requantizing the image of an integer. -/

namespace Sys2Proof.Machine

/-- In a rising row, the entries up to `i` are those up to its band. -/
theorem countP_le_of_rising {row : List Nat} (hr : row.Pairwise (· < ·)) {b i : Nat} (hb : b + 1 < row.length)
    (h1 : row.getD b 0 ≤ i) (h2 : i < row.getD (b + 1) 0) : row.countP (· ≤ i) = b + 1 := by
  have hm : ∀ {j k}, j < k → (hk : k < row.length) → row.getD j 0 < row.getD k 0 := by
    intro j k hjk hk
    rw [List.getD_eq_getElem _ _ (by omega), List.getD_eq_getElem _ _ hk]
    exact List.pairwise_iff_getElem.1 hr j k (by omega) hk hjk
  have hle : ∀ {j k}, j ≤ k → k < row.length → row.getD j 0 ≤ row.getD k 0 := by
    intro j k hjk hk
    rcases Nat.lt_or_eq_of_le hjk with h | rfl
    · exact (hm h hk).le
    · exact le_rfl
  rw [← List.take_append_drop (b + 1) row, List.countP_append]
  have e1 : (row.take (b + 1)).countP (· ≤ i) = b + 1 := by
    rw [List.countP_eq_length.2, List.length_take]
    · omega
    · intro a ha
      obtain ⟨j, hj, rfl⟩ := List.getElem_of_mem ha
      rw [List.length_take] at hj
      have := hle (show j ≤ b by omega) (by omega)
      rw [List.getD_eq_getElem _ _ (show j < row.length by omega)] at this
      simp only [List.getElem_take, decide_eq_true_eq]
      omega
  have e2 : (row.drop (b + 1)).countP (· ≤ i) = 0 := by
    rw [List.countP_eq_zero]
    intro a ha
    obtain ⟨j, hj, rfl⟩ := List.getElem_of_mem ha
    rw [List.length_drop] at hj
    have := hle (show b + 1 ≤ b + 1 + j by omega) (by omega)
    rw [List.getD_eq_getElem _ _ (show b + 1 + j < row.length by omega)] at this
    simp only [List.getElem_drop, decide_eq_true_eq]
    omega
  omega

theorem bandOf_eq {row : List Nat} (hr : row.Pairwise (· < ·)) {b i : Nat} (hb : b + 1 < row.length)
    (h1 : row.getD b 0 ≤ i) (h2 : i < row.getD (b + 1) 0) : bandOf row i = b := by
  rw [bandOf, countP_le_of_rising hr hb h1 h2]; rfl

theorem sfbLong_rising : ∀ (lsf : Bool) (f : Fin 3), (sfbLong lsf f).Pairwise (· < ·) := by decide

theorem sfbShort_rising : ∀ (lsf : Bool) (f : Fin 3), (sfbShort lsf f).Pairwise (· < ·) := by decide

theorem sfbLong_length : ∀ (lsf : Bool) (f : Fin 3), (sfbLong lsf f).length = 23 := by decide

theorem sfbShort_length : ∀ (lsf : Bool) (f : Fin 3), (sfbShort lsf f).length = 14 := by decide

/-- The last edges: 576 lines, three windows of 192. -/
theorem sfbLong_last : ∀ (lsf : Bool) (f : Fin 3), (sfbLong lsf f).getD 22 0 = 576 := by decide

theorem sfbShort_last : ∀ (lsf : Bool) (f : Fin 3), (sfbShort lsf f).getD 13 0 = 192 := by decide

theorem sfb_first : ∀ (lsf : Bool) (f : Fin 3), (sfbLong lsf f).getD 0 0 = 0 ∧ (sfbShort lsf f).getD 0 0 = 0 := by decide

/-- Line 36 is a long band edge, and short band 3 starts there (20_memory R72). -/
theorem sfb_at_36 : ∀ (lsf : Bool) (f : Fin 3), 36 ∈ sfbLong lsf f ∧ 3 * (sfbShort lsf f).getD 3 0 = 36 := by decide

/-- The long band of a line. -/
theorem bandOf_longRow (s : State) {b i : Nat} (hb : b < 22) (h1 : s.longRow.getD b 0 ≤ i) (h2 : i < s.longRow.getD (b + 1) 0) :
    bandOf s.longRow i = b :=
  bandOf_eq (sfbLong_rising _ _) (by
    show b + 1 < (sfbLong s.hdr.lsf s.hdr.sfreq).length
    rw [sfbLong_length]; omega) h1 h2

theorem getD_map_mul (l : List Nat) (k b : Nat) : (l.map (k * ·)).getD b 0 = k * l.getD b 0 := by
  simp only [List.getD, List.getElem?_map]
  cases l[b]? <;> simp

/-- The short band of a line. -/
theorem bandOf_shortRow (s : State) {b i : Nat} (hb : b < 13) (h1 : 3 * s.shortRow.getD b 0 ≤ i)
    (h2 : i < 3 * s.shortRow.getD (b + 1) 0) : bandOf (s.shortRow.map (3 * ·)) i = b := by
  refine bandOf_eq ?_ ?_ ?_ ?_
  · exact List.pairwise_map.2 ((sfbShort_rising _ _).imp fun h => by omega)
  · rw [List.length_map, State.shortRow, sfbShort_length]; omega
  · rw [getD_map_mul]; exact h1
  · rw [getD_map_mul]; exact h2

/-- Every line is in a long band. -/
theorem exists_longBand (s : State) {i : Nat} (h : i < 576) :
    ∃ b, b < 22 ∧ s.longRow.getD b 0 ≤ i ∧ i < s.longRow.getD (b + 1) 0 := by
  have h0 := (sfb_first s.hdr.lsf s.hdr.sfreq).1
  have h22 := sfbLong_last s.hdr.lsf s.hdr.sfreq
  have : ∀ n, n ≤ 22 → i < s.longRow.getD n 0 → ∃ b, b < n ∧ s.longRow.getD b 0 ≤ i ∧ i < s.longRow.getD (b + 1) 0 := by
    intro n
    induction n with
    | zero => intro _ k; rw [State.longRow, h0] at k; omega
    | succ n ih =>
      intro hn k
      by_cases hk : i < s.longRow.getD n 0
      · obtain ⟨b, hb, h⟩ := ih (by omega) hk
        exact ⟨b, by omega, h⟩
      · exact ⟨n, by omega, by omega, k⟩
  exact this 22 le_rfl (by rw [State.longRow, h22]; omega)

/-- Every line is in a short band. -/
theorem exists_shortBand (s : State) {i : Nat} (h : i < 576) :
    ∃ b, b < 13 ∧ 3 * s.shortRow.getD b 0 ≤ i ∧ i < 3 * s.shortRow.getD (b + 1) 0 := by
  have h0 := (sfb_first s.hdr.lsf s.hdr.sfreq).2
  have h22 := sfbShort_last s.hdr.lsf s.hdr.sfreq
  have : ∀ n, n ≤ 13 → i < 3 * s.shortRow.getD n 0 → ∃ b, b < n ∧ 3 * s.shortRow.getD b 0 ≤ i ∧ i < 3 * s.shortRow.getD (b + 1) 0 := by
    intro n
    induction n with
    | zero => intro _ k; rw [State.shortRow, h0] at k; omega
    | succ n ih =>
      intro hn k
      by_cases hk : i < 3 * s.shortRow.getD n 0
      · obtain ⟨b, hb, h⟩ := ih (by omega) hk
        exact ⟨b, by omega, h⟩
      · exact ⟨n, by omega, by omega, k⟩
  exact this 13 le_rfl (by rw [State.shortRow, h22]; omega)

theorem shortRow_mono (s : State) {b : Nat} (hb : b < 13) : s.shortRow.getD b 0 < s.shortRow.getD (b + 1) 0 := by
  have h := sfbShort_rising s.hdr.lsf s.hdr.sfreq
  have l := sfbShort_length s.hdr.lsf s.hdr.sfreq
  rw [State.shortRow, List.getD_eq_getElem _ _ (by omega), List.getD_eq_getElem _ _ (by omega)]
  exact List.pairwise_iff_getElem.1 h b (b + 1) (by omega) (by omega) (by omega)

theorem shortRow_le (s : State) {a b : Nat} (h : a ≤ b) (hb : b < 14) : s.shortRow.getD a 0 ≤ s.shortRow.getD b 0 := by
  induction b with
  | zero =>
    obtain rfl : a = 0 := by omega
    exact le_rfl
  | succ b ih =>
    rcases Nat.lt_or_eq_of_le h with h | rfl
    · exact (ih (by omega) (by omega)).trans (shortRow_mono s (by omega)).le
    · exact le_rfl

/-- Where the lines of window `win` of a short band are, before and after interleaving. -/
theorem shortBand_lines (s : State) {b win j : Nat} (hb : b < 13) (hw : win < 3)
    (hj : j < s.shortRow.getD (b + 1) 0 - s.shortRow.getD b 0) :
    3 * s.shortRow.getD b 0 + win * (s.shortRow.getD (b + 1) 0 - s.shortRow.getD b 0) + j < 3 * s.shortRow.getD (b + 1) 0 ∧
      3 * s.shortRow.getD b 0 + 3 * j + win < 3 * s.shortRow.getD (b + 1) 0 ∧ 3 * s.shortRow.getD (b + 1) 0 ≤ 576 := by
  have := shortRow_le s (show b + 1 ≤ 13 by omega) (by omega)
  rw [show s.shortRow.getD 13 0 = 192 from sfbShort_last _ _] at this
  interval_cases win <;> omega

/-! ### Images of integers -/

/-- A line that holds the image of an integer the rules allow gives that integer back. -/
theorem fToInt_fOfInt {q : Int} (h : q.natAbs ≤ 8206) : fToInt (fOfInt q) = some q := fToInt_fOfInt_of_lt (by omega)

theorem reqLine_fOfInt {q : Int} (h : q.natAbs ≤ 8206) (e4 : Int) : reqLine (fOfInt q) e4 = reqInt q e4 := by
  rw [reqLine, fToInt_fOfInt h]; exact if_pos h

end Sys2Proof.Machine
end

