-- ==== Sys2Proof/Tests/Slice0.lean ====
section
/-! SUPPORT. The model's own tests: the ill-formed terms, words from the spec's encodings, single steps with the values of
95_test_vectors, and a witness for the hypotheses of every statement. -/

namespace Sys2Proof.Tests

open Sys2Proof.Machine Sys2Proof.Claims

set_option Elab.async false

/-! ### Helpers -/

def bytes (l : List Nat) : List Byte := l.map (BitVec.ofNat 8)

def zeroBytes (n : Nat) : List Byte := List.replicate n 0#8

/-- `XR[0][0]` from integers, the rest 0. -/
def withLines (l : List Int) (s : State) : State := s.setLines 0 0 (.tab 576 fun i => fOfInt (l.getD i 0))

/-- `SI.*[0][0]`. -/
def withGran (g : Gran) (s : State) : State := s.setGran 0 0 g

/-- A short granule. -/
def shortGran : Gran := { Gran.zero with winSwitch := true, blockType := .short }

/-- `MD` from its first bytes, the cursor at `p`. -/
def withMd (l : List Nat) (p : Nat) (s : State) : State := { s with md := bytes l, bitpos := p }

/-- A header of mode `m`, mode extension `e`, no CRC, frame size `n`, 44100 Hz (or 22050 Hz). -/
def hdrOf (lsf : Bool) (m : ChannelMode) (e : BitVec 2) (n : Nat) : Hdr := ⟨lsf, 0, m, e, true, BitVec.ofNat 12 n⟩

def withHdr (h : Hdr) (s : State) : State := { s with hdr := h }

/-- `exec i s` answers a next state that passes `p`. -/
def runs (i : Instr) (s : State) (p : State → Bool) : Bool :=
  match exec i s with
  | .next t => p t
  | .fault _ => false
  | .refused _ => false

/-- The values of `F` an operation returned. -/
def retVals (t : State) : List F32 :=
  match t.ret with
  | .vals l => l
  | _ => []

/-- Values of `F` against a table of billionths, to one ten-millionth (95_test_vectors rounds to 9 places). -/
def near (l : List F32) (table : List Int) : Bool :=
  l.length == table.length &&
    (List.range l.length).all fun i => decide (|fInt (l.getD i 0#32) * 10 ^ 9 - table.getD i 0 * 2 ^ 149| ≤ 100 * 2 ^ 149)

/-- The first lines of `XR[gr][ch]` are these. -/
def linesAre (t : State) (gr ch : Fin 2) (l : List F32) : Bool :=
  (List.range l.length).all fun i => t.line gr ch i == l.getD i 0#32

/-- What a raise with cause `c` at `pos` records (60_exceptions R286). -/
def raisedAt (t : State) (c : Cause) (pos : SeqPos) : Bool :=
  t.cause == c && t.whr == pos && t.seq == SeqPos.idle && !t.status.pcmValid

/-- The record of a `FRAME`. -/
def frameOf (lsf : Bool) (m : ChannelMode) (e : BitVec 2) (n : Nat) (si main : List Byte) : FrameRec := ⟨hdrOf lsf m e n, si, main⟩

/-! ### Ill-formed terms -/

theorem test_wf_frame_image : Instr.wf (.frame (frameOf false .stereo 0 417 (zeroBytes 33) [])) = false := by decide +kernel

theorem test_wf_frame_main : Instr.wf (.frame (frameOf false .stereo 0 417 [] (zeroBytes 382))) = false := by decide +kernel

theorem test_wf_loadsi : Instr.wf (.loadsi (zeroBytes 256)) = false := by decide +kernel

theorem test_wf_bcSetpos : Instr.wf (.bcSetpos 4294967296) = false := by decide +kernel

theorem test_wf_rsvRecv : Instr.wf (.rsvRecv (zeroBytes 65536)) = false := by
  simp only [Instr.wf, wfBytes, zeroBytes, List.length_replicate]
  decide

theorem test_wf_rsvAppend : Instr.wf (.rsvAppend (zeroBytes 65536)) = false := by
  simp only [Instr.wf, wfBytes, zeroBytes, List.length_replicate]
  decide

theorem test_wf_rsvSplice : Instr.wf (.rsvSplice (zeroBytes 65536)) = false := by
  simp only [Instr.wf, wfBytes, zeroBytes, List.length_replicate]
  decide

theorem test_wf_hufGranule : Instr.wf (.hufGranule 0 0 4294967296) = false := by decide +kernel

theorem test_wf_hufCnt1 : Instr.wf (.hufCnt1 0 0 4294967296) = false := by decide +kernel

theorem test_wf_reqL : Instr.wf (.reqL 0 0 (BitVec.ofInt 16 8207) 0) = false := by decide +kernel

theorem test_wf_reqS : Instr.wf (.reqS 0 0 (BitVec.ofInt 16 (-8207)) 0 0) = false := by decide +kernel

theorem test_wf_imdctL : Instr.wf (.imdctL (zeros 18) .short) = false := by decide +kernel

theorem test_wf_prime_zero : Instr.wf (.prime 0 [frameOf false .stereo 0 36 [] []]) = false := by decide +kernel

theorem test_wf_prime_index : Instr.wf (.prime 1 [frameOf false .stereo 0 36 [] []]) = false := by decide +kernel

theorem test_wf_prime_frame : Instr.wf (.prime 1 [frameOf false .stereo 0 36 [] [], frameOf false .stereo 0 36 [] [0#8]]) = false := by decide +kernel

theorem test_wf_prime_many : Instr.wf (.prime 1 (List.replicate 65536 (frameOf false .stereo 0 36 [] []))) = false := by
  simp only [Instr.wf, List.length_replicate]
  decide +kernel

theorem test_wf_pair_reserved : Instr.wf (.pairItem 14 0 0 0 0 false false) = false := by decide +kernel

theorem test_wf_pair_dim : Instr.wf (.pairItem 1 2 0 0 0 false false) = false := by decide +kernel

theorem test_wf_pair_escape : Instr.wf (.pairItem 16 15 0 2 0 false false) = false := by decide +kernel

theorem test_wf_pair_no_escape : Instr.wf (.pairItem 16 14 0 1 0 false false) = false := by decide +kernel

theorem test_wf_pair_sign : Instr.wf (.pairItem 1 0 1 0 0 true false) = false := by decide +kernel

theorem test_wf_quad_sign : Instr.wf (.quadItem true 0b0101#4 0b1000#4) = false := by decide +kernel

theorem test_wf_codeword_signs : ∀ (q : Bool) (v n : BitVec 4), v ≠ 0#4 → wfSigns v n = false → (quadInstr q v n).wf = false := by
  decide +kernel

/-! ### Words written out from the spec's encodings -/

/-- 30_encoding R92, one OPID of each family; the operand bytes are the port's (log 2). -/
theorem test_decode_opids :
    decode [0b00000000#8] = .ok (.idle, []) ∧ decode [0b00000100#8, 5#8] = .ok (.bcRead 5, []) ∧
    decode [0b00001000#8] = .ok (.rsvCheck, []) ∧ decode [0b00010000#8] = .ok (.scfClear, []) ∧
    decode [0b00011011#8, 31#8] = .ok (.hufPair 31, []) ∧ decode [0b00100010#8, 1#8] = .ok (.stereo 1, []) ∧
    decode [0b00100110#8, 0b10#8] = .ok (.synth 1 0, []) := by
  decide +kernel

/-- 42_huffman R170: `000001` is `1111` in table A; `0000` is `1111` in table B; then four sign bits (30_encoding R103). -/
theorem test_decode_quads :
    decode [0x5C#8, 0b00000101#8, 0b01000000#8] = .ok (.quadA1111 0b0101#4, []) ∧
    decode [0x5D#8, 0b00001010#8, 0#8] = .ok (.quadB1111 0b1010#4, []) ∧
    decode [0x5C#8, 0b10000000#8, 0#8] = .ok (.quadA0000, []) := by
  decide +kernel

/-- 42_huffman R178: `1`, `001`, `01`, `000` with sign bits. -/
theorem test_decode_pairs :
    decode [0x5E#8, 0b10000000#8] = .ok (.pairOne00, []) ∧ decode [0x5E#8, 0b00110000#8] = .ok (.pairOne01 true, []) ∧
    decode [0x5E#8, 0b01100000#8] = .ok (.pairOne10 true, []) ∧ decode [0x5E#8, 0b00001000#8] = .ok (.pairOne11 false true, []) := by
  decide +kernel

/-- 30_encoding R96, granule 0 of 95_test_vectors V5: 59 bits, `WIN_SWITCH = 0`, then five zeros. -/
theorem test_decode_group_plain :
    decode (0x50#8 :: 0b00#8 :: packBits (natBits 12 2748 ++ natBits 9 291 ++ natBits 8 210 ++ natBits 4 5 ++ [false] ++ natBits 5 1 ++
      natBits 5 15 ++ natBits 5 24 ++ natBits 4 7 ++ natBits 3 5 ++ [true, false, true])) =
      .ok (.siGroupM1Ws0 0 0 ⟨2748, 291, 210⟩ 5 ⟨1, 15, 24, 7, 5⟩ true ⟨false, true⟩, []) := by
  decide +kernel

/-- 30_encoding R97: 63 bits, `WIN_SWITCH = 1`, then one zero; a one there is refused. -/
theorem test_decode_group_lsf :
    decode (0x51#8 :: 1#8 :: packBits (natBits 12 200 ++ natBits 9 30 ++ natBits 8 150 ++ natBits 9 405 ++ [true] ++ natBits 2 1 ++
      [false] ++ natBits 5 7 ++ natBits 5 8 ++ natBits 9 0 ++ [true, true, false])) =
      .ok (.siGroupLsfWs1 1 ⟨200, 30, 150⟩ 405 ⟨.start, false, 7, 8, 0, 0, 0⟩ ⟨true, true⟩, []) ∧
    decode [0x55#8, 0xFF#8, 0b11000001#8] = .error .reservedBits := by
  decide +kernel

/-- What is no instruction: nothing, a cut operand, a bad operand, an unassigned cause. -/
theorem test_decode_errors :
    decode [] = .error .empty ∧ decode [0x11#8] = .error .truncated ∧ decode [0x11#8, 4#8] = .error .operandRange ∧
    decode [0x60#8, 0x0A#8] = .error (.unassignedCause 0x0A#8) ∧ decode [0x07#8] = .error (.unassigned 0x07#8) := by
  decide +kernel

/-- The opcode table's words: an OPID with operand bytes of zeros, a header. -/
theorem test_table_words :
    decodeTableWord 8 0x1B = some (.hufPair 0) ∧ decodeTableWord 8 0x20 = some (.req 0 0) ∧
    decodeTableWord 32 0xFFFB9000 =
      some (.header ⟨0b11#2, 0b01#2, true, 0b1001#4, 0#2, false, false, .stereo, 0#2, false, false, 0#2⟩) := by
  decide +kernel

/-- A table word at the front of the port is what the next step runs. -/
theorem test_fetch_word :
    step (State.reset.withFetchWord 8 0x05) = exec .bcPos { State.reset with port := List.replicate 160 0#8, bench := true } := by rfl

/-- 47_frame_control R265: from the host alone `BC.POS` is refused, `RESET` is not. -/
theorem test_host_commands :
    step { State.reset with port := [0x05#8] } = .refused .notACommand ∧
    step { State.reset with port := [0x01#8] } = exec .reset State.reset := by
  exact ⟨rfl, rfl⟩

/-! ### Single steps, with the values of 95_test_vectors -/

/-- V1. -/
theorem test_bcRead :
    runs (.bcRead 3) (withMd [0xA5, 0x3C] 0 State.reset) (fun t => t.bitpos == 3 && t.ret == .nat 5) = true ∧
    runs (.bcRead 8) (withMd [0xA5, 0x3C] 8 State.reset) (fun t => t.bitpos == 16 && t.ret == .nat 0x3C) = true := by
  decide +kernel

/-- V1, V2: beyond the end, by one bit or by many. -/
theorem test_bcRead_overrun :
    runs (.bcRead 1) (withMd [0xA5, 0x3C] 16 State.reset) (fun t => raisedAt t .bitsOverrun SeqPos.idle && t.status.fault) = true ∧
    runs (.bcRead 0) (withMd [0xA5, 0x3C] 16 State.reset) (fun t => t.bitpos == 16 && t.ret == .nat 0) = true := by
  decide +kernel

/-- V2: a field over two byte boundaries. -/
theorem test_getBits :
    runs (.getBits 10) (withMd [0x01, 0x80, 0x80] 7 State.reset) (fun t => t.bitpos == 17 && t.ret == .nat 769) = true := by
  decide +kernel

/-- V2. -/
theorem test_bcSetpos :
    runs (.bcSetpos 100) (withMd [0x61, 0x67, 0xC0] 14 State.reset) (fun t => t.bitpos == 100 && !t.status.fault) = true ∧
    runs .bcPos (withMd [0x61, 0x67, 0xC0] 14 State.reset) (fun t => t.ret == .nat 14) = true := by
  decide +kernel

/-- V4(a). -/
theorem test_rsvAppend :
    runs (.rsvAppend (bytes [1, 2, 3])) State.reset (fun t => t.rsv == bytes [1, 2, 3] && t.status == ⟨false, true, false⟩ &&
      raisedAt t .rsvInsufficient ⟨.rsvAppend, 0, 0⟩) = true := by
  decide +kernel

/-- V4(b). -/
theorem test_rsvSplice :
    runs (.rsvSplice (bytes [0xAA, 0xBB, 0xCC]))
      { State.reset with rsv := bytes [1, 2, 3, 4, 5, 6, 7, 8, 9, 10], si := { SideInfo.zero with mainDataBegin := 4 } }
      (fun t => t.md == bytes [7, 8, 9, 10, 0xAA, 0xBB, 0xCC] && t.rsv == t.md && t.bitpos == 0) = true := by
  decide +kernel

/-- V32, V33, V34. -/
theorem test_rsvCheck :
    runs .rsvCheck (withHdr (hdrOf false .stereo 0 30) State.reset) (fun t => raisedAt t .mainSize ⟨.rsvCheck, 0, 0⟩) = true ∧
    runs .rsvCheck (withHdr (hdrOf false .stereo 0 1536) State.reset) (fun t => !t.status.fault) = true ∧
    runs .rsvCheck (withHdr (hdrOf false .stereo 0 1537) State.reset) (fun t => raisedAt t .mainSize ⟨.rsvCheck, 0, 0⟩) = true := by
  decide +kernel

/-- V36. -/
theorem test_rsvRecv :
    runs (.rsvRecv (zeroBytes 100)) (withHdr (hdrOf false .stereo 0 417) State.reset)
      (fun t => raisedAt t .mainTruncated ⟨.rsvRecv, 0, 0⟩ && t.outcome == .unexpectedEos .mainTruncated) = true := by
  decide +kernel

/-- V5. -/
theorem test_loadsi_m1 :
    runs (.loadsi (bytes [0xAA, 0xFE, 0x6A, 0xF2, 0x47, 0xA4, 0xA0, 0xBF, 0x0F, 0x68, 0x32, 0x0C, 0xAD, 0x27, 0x61, 0xF2, 0xBA]))
      (withHdr (hdrOf false .single 0 104) State.reset)
      (fun t => t.si.mainDataBegin == 341 && t.si.priv == 31 && t.si.scfsi.get 0 == 0b1001#4 &&
        t.gran 0 0 == ⟨2748, 291, 210, 5, false, .normal, false, 1, 15, 24, 0, 0, 0, 7, 5, true, false, true, 0⟩ &&
        t.gran 1 0 == ⟨100, 50, 180, 9, true, .short, true, 16, 31, 0, 1, 2, 7, 7, 13, false, true, false, 0⟩) = true := by
  decide +kernel

/-- V6. -/
theorem test_loadsi_lsf :
    runs (.loadsi (bytes [0xA5, 0x86, 0x40, 0x7A, 0x5B, 0x2B, 0x47, 0x40, 0x03])) (withHdr (hdrOf true .single 0 100) State.reset)
      (fun t => t.si.mainDataBegin == 165 && t.si.priv == 1 && t.si.scfsi == ⟨0, 0⟩ &&
        t.gran 0 0 == ⟨200, 30, 150, 405, true, .start, false, 7, 8, 0, 0, 0, 0, 7, 13, false, true, true, 0⟩) = true := by
  decide +kernel

/-- V7. -/
theorem test_sizes :
    (hdrOf false .stereo 0 417).siSize = 32 ∧ (hdrOf false .stereo 0 417).mainSize = 381 ∧
    ({ hdrOf false .stereo 0 417 with prot := false } : Hdr).mainSize = 379 ∧ (hdrOf false .single 0 104).mainSize = 83 ∧
    (hdrOf true .single 0 100).mainSize = 87 := by
  decide

/-- V8a, granule 0: 21 factors of one bit. -/
theorem test_scfM1 :
    runs (.scfM1 0 0) (withMd [0xB1, 0xD0, 0xFF, 0xC2] 0 (withGran { Gran.zero with scalefacCompress := 5 } State.reset))
      (fun t => t.bitpos == 21 && (List.range 22).map (fun b => (t.scfLong 0 0 b).toNat) ==
        [1, 0, 1, 1, 0, 0, 0, 1, 1, 1, 0, 1, 0, 0, 0, 0, 1, 1, 1, 1, 1, 0]) = true := by
  decide +kernel

/-- V8b: 74, 126 and 122 bits. -/
theorem test_scfM1_counts :
    runs (.scfM1 0 0) (withMd (List.replicate 16 0) 0 (withGran { Gran.zero with scalefacCompress := 15 } State.reset))
      (fun t => t.bitpos == 74) = true ∧
    runs (.scfM1 0 0) (withMd (List.replicate 16 0) 0 (withGran { shortGran with scalefacCompress := 15 } State.reset))
      (fun t => t.bitpos == 126) = true ∧
    runs (.scfM1 0 0) (withMd (List.replicate 16 0) 0 (withGran { shortGran with scalefacCompress := 15, mixed := true } State.reset))
      (fun t => t.bitpos == 122) = true := by
  decide +kernel

/-- V8c. -/
theorem test_scfM2 :
    runs (.scfM2 0) (withMd [0xB2, 0xD0] 0 (withGran { Gran.zero with scalefacCompress := 405 } State.reset))
      (fun t => t.bitpos == 12 && !(t.gran 0 0).preflag && (List.range 22).map (fun b => (t.scfLong 0 0 b).toNat) ==
        [0, 0, 0, 0, 0, 0, 1, 0, 1, 1, 0, 0, 1, 0, 1, 1, 0, 1, 0, 0, 0, 0]) = true := by
  decide +kernel

/-- V44; and the rows of `TAB.NSLEN2` in V8c. -/
theorem test_scfM2_mixed :
    runs (.scfM2 0) (withGran { shortGran with mixed := true } State.reset) (fun t => raisedAt t .scfCount ⟨.scfM2, 0, 0⟩) = true ∧
    nslen2 399 = ⟨[4, 4, 3, 3], 0, false⟩ ∧ nslen2 499 = ⟨[4, 4, 3, 0], 1, false⟩ ∧ nslen2 500 = ⟨[0, 0, 0, 0], 2, true⟩ ∧
    nslen2 511 = ⟨[3, 2, 0, 0], 2, true⟩ := by
  decide +kernel

/-- V8: a clean end. -/
theorem test_hufGranule :
    runs (.hufGranule 0 0 0) (withMd [0x61, 0x67, 0xC0] 0 (withGran { Gran.zero with part23Length := 18, bigValues := 2, table0 := 1, count1Table := true } State.reset))
      (fun t => t.bitpos == 18 && (t.gran 0 0).count1 == 12 &&
        linesAre t 0 0 ([-1, 0, 1, -1, 1, 0, 0, -1, 0, 0, 0, 0, 0].map fOfInt)) = true := by
  decide +kernel

/-- V9: the last quadruple is dropped. -/
theorem test_hufGranule_overrun :
    runs (.hufGranule 0 0 0) (withMd [0x61, 0x67, 0xC0] 0 (withGran { Gran.zero with part23Length := 16, bigValues := 2, table0 := 1, count1Table := true } State.reset))
      (fun t => t.bitpos == 16 && (t.gran 0 0).count1 == 8 && linesAre t 0 0 ([-1, 0, 1, -1, 1, 0, 0, -1, 0].map fOfInt)) = true := by
  decide +kernel

/-- V10: table A, eighteen quadruples of one bit. -/
theorem test_hufCnt1 :
    runs (.hufCnt1 0 0 0)
      (withMd [0xFF, 0xFF, 0xFF] 0 (withGran { Gran.zero with part23Length := 18, bigValues := 2 } State.reset))
      (fun t => t.bitpos == 18 && (t.gran 0 0).count1 == 76) = true := by
  decide +kernel

/-- V37, V12: the range checks. -/
theorem test_hufBig :
    runs (.hufBig 0 0) (withGran { Gran.zero with bigValues := 289 } State.reset) (fun t => t.cause == .lineRange) = true ∧
    runs (.hufBig 0 0) (withGran { Gran.zero with bigValues := 2, region0 := 15, region1 := 6 } State.reset)
      (fun t => t.cause == .regionRange) = true := by
  decide +kernel

/-- V12. -/
theorem test_regions :
    regions State.reset { Gran.zero with region0 := 4, region1 := 3 } = some (20, 44) ∧
    regions State.reset { Gran.zero with region0 := 7, region1 := 13 } = some (36, 576) ∧
    regions State.reset { Gran.zero with region0 := 15, region1 := 5 } = some (162, 576) ∧
    regions (withHdr (hdrOf true .single 0 0) State.reset) { Gran.zero with region0 := 7, region1 := 13 } = some (54, 576) := by
  decide +kernel

/-- V11. -/
theorem test_hufPair :
    runs (.hufPair 1) (withMd [0b00110000] 0 State.reset) (fun t => t.bitpos == 4 && t.ret == .ints [0, -1]) = true ∧
    runs (.hufPair 1) (withMd [0b00011000] 0 State.reset) (fun t => t.bitpos == 5 && t.ret == .ints [-1, -1]) = true := by
  decide +kernel

/-- V11. -/
theorem test_hufQuad :
    runs (.hufQuad true) (withMd [0b01100100] 0 State.reset) (fun t => t.bitpos == 6 && t.ret == .ints [1, 0, 0, -1]) = true ∧
    runs (.hufQuad false) (withMd [0b00000111, 0b11000000] 0 State.reset)
      (fun t => t.bitpos == 10 && t.ret == .ints [-1, -1, -1, -1]) = true := by
  decide +kernel

/-- V11, as a codeword row: six bits and two signs. -/
theorem test_quadRow :
    runs (.quadA0101 0b0100#4) (withMd [0] 0 State.reset) (fun t => t.bitpos == 8 && t.ret == .ints [0, -1, 0, 1]) = true := by
  decide +kernel

/-- V14. -/
theorem test_reqL :
    runs (.reqL 0 0 (BitVec.ofInt 16 (-2)) 0) (withGran { Gran.zero with globalGain := 210 } State.reset) (fun t => t.ret == .vals [0xC0214518#32]) = true ∧
    runs (.reqL 0 0 (BitVec.ofInt 16 8) 1) ((withGran { Gran.zero with globalGain := 210 } State.reset).setScfLong 0 0 1 2)
      (fun t => t.ret == .vals [fOfInt 8]) = true ∧
    runs (.reqL 0 0 27 17)
      ((withGran { Gran.zero with globalGain := 210, scalefacScale := true, preflag := true } State.reset).setScfLong 0 0 17 1)
      (fun t => t.ret == .vals [0x40A20000#32]) = true := by
  decide +kernel

/-- V15. -/
theorem test_reqS :
    runs (.reqS 0 0 1 0 1) (withGran { shortGran with globalGain := 210, gain1 := 1, gain2 := 2 } State.reset)
      (fun t => t.ret == .vals [0x3E800000#32]) = true ∧
    runs (.reqS 0 0 1 0 2) (withGran { shortGran with globalGain := 210, gain1 := 1, gain2 := 2 } State.reset)
      (fun t => t.ret == .vals [0x3D800000#32]) = true := by
  decide +kernel

/-- V17: the last entry of the power table. -/
theorem test_reqL_bound :
    runs (.reqL 0 0 (BitVec.ofInt 16 (-8206)) 0) (withGran { Gran.zero with globalGain := 210 } State.reset) (fun t => t.ret == .vals [0xC821A332#32]) = true := by
  decide +kernel

/-- V16. -/
theorem test_req :
    runs (.req 0 0) ((withLines [1, -1, 0, 2, 8, -8] (withGran { Gran.zero with globalGain := 210, count1 := 6 } State.reset)).setScfLong 0 0 1 2)
      (fun t => linesAre t 0 0 [fOfInt 1, fOfInt (-1), 0#32, 0x40214518#32, fOfInt 8, fOfInt (-8), 0#32]) = true := by
  decide +kernel

/-- V18. -/
theorem test_reord :
    runs (.reord 0 0) (withLines [1, 2, 3, 4, 11, 12, 13, 14, 21, 22, 23, 24] (withGran { shortGran with count1 := 12 } State.reset))
      (fun t => linesAre t 0 0 ([1, 11, 21, 2, 12, 22, 3, 13, 23, 4, 14, 24, 0].map fOfInt)) = true := by
  decide +kernel

/-- V19. -/
theorem test_stMs :
    runs (.stMs (fOfInt 1) (fOfInt 0)) State.reset (fun t => t.ret == .vals [0x3F3504F3#32, 0x3F3504F3#32]) = true ∧
    runs (.stMs (fOfInt 1) (fOfInt (-1))) State.reset (fun t => t.ret == .vals [0#32, 0x3FB504F3#32]) = true := by
  decide +kernel

/-- V20. -/
theorem test_stIs :
    runs (.stIs (fOfInt 2) 0) State.reset (fun t => t.ret == .vals [0#32, fOfInt 2]) = true ∧
    runs (.stIs (fOfInt 2) 1) State.reset (fun t => t.ret == .vals [0x3ED8658C#32, 0x3FC9E69D#32]) = true := by
  decide +kernel

/-- V22: each window of a short band has its own position. -/
theorem test_stereo :
    runs (.stereo 0)
      (withHdr (hdrOf false .joint 1 417) ((((withLines (List.replicate 12 1) (withGran shortGran State.reset)).setGran 0 1 shortGran).setScfShort
        0 1 0 0 3).setScfShort 0 1 0 1 7 |>.setScfShort 0 1 0 2 6))
      (fun t => linesAre t 0 0 [0x3F000000#32, fOfInt 1, fOfInt 1, 0x3F000000#32, fOfInt 1] &&
        linesAre t 0 1 [0x3F000000#32, 0#32, 0#32, 0x3F000000#32, 0#32]) = true := by
  decide +kernel

/-- V23. -/
theorem test_stereo_mismatch :
    runs (.stereo 1) (withHdr (hdrOf false .joint 1 417) (State.reset.setGran 1 0 shortGran))
      (fun t => raisedAt t .stereoBlockMismatch ⟨.stereo, 1, 0⟩) = true := by
  decide +kernel

/-- V24. -/
theorem test_antialias :
    runs (.antialias 0 0) (withLines (List.replicate 17 0 ++ [1]) State.reset)
      (fun t => t.line 0 0 17 == 0x3F5B84A8#32 && t.line 0 0 18 == 0xBF03B5FE#32 && t.line 0 0 16 == 0#32) = true := by
  decide +kernel

/-- V28. -/
theorem test_finv :
    runs (.finv 0 0) (State.reset.setLines 0 0 (.tab 576 fun _ => fOfInt 1))
      (fun t => t.line 0 0 19 == fOfInt (-1) && t.line 0 0 575 == fOfInt (-1) && t.line 0 0 18 == fOfInt 1 && t.line 0 0 1 == fOfInt 1 &&
        t.line 0 0 37 == fOfInt 1) = true := by
  decide +kernel

/-- V25, all 36 values. -/
theorem test_imdctL :
    runs (.imdctL (.tab 18 fun k => if k = 0 then fOfInt 1 else 0#32) .normal) State.reset
      (fun t => near (retVals t)
        [29468831, 79459311, 116292920, 138850486, 146446609, 138850486, 116292920, 79459311, 29468831, -32159586,
          -103553391, -182543319, -266729302, -353553391, -440377479, -524563462, -603553391, -674947195, -736575612,
          -786566092, -823399701, -845957267, -853553391, -845957267, -823399701, -786566092, -736575612, -674947195,
          -603553391, -524563462, -440377479, -353553391, -266729302, -182543319, -103553391, -32159586]) = true := by
  decide +kernel

/-- V26, all 36 values. -/
theorem test_imdctS :
    runs (.imdctS (.tab 18 fun k => if k = 0 then fOfInt 1 else 0#32)) State.reset
      (fun t => near (retVals t)
        [0, 0, 0, 0, 0, 0, 79459311, 146446609, 79459311, -103553391, -353553391, -603553391, -786566092, -853553391,
          -786566092, -603553391, -353553391, -103553391, 0, 0, 0, 0, 0, 0, 0, 0, 0, 0, 0, 0, 0, 0, 0, 0, 0, 0]) = true := by
  decide +kernel

/-- The tail of a subband is added and replaced (45_antialias_hybrid R231). -/
theorem test_ola :
    runs (.ola 0 0 1 (.tab 36 fun p => fOfInt p)) (State.reset.setStore 0 (.tab 576 fun _ => fOfInt 100))
      (fun t => t.line 0 0 19 == fOfInt 101 && t.overlap 0 1 1 == fOfInt 19 && t.overlap 0 0 1 == fOfInt 100) = true := by
  decide +kernel

/-- V25, V27: the transform's first half on a stored tail of 1, the second half stored. -/
theorem test_hyb :
    runs (.hyb 0 0) ((withLines [1] State.reset).setStore 0 (.tab 576 fun _ => fOfInt 1))
      (fun t => near [t.line 0 0 4, t.line 0 0 17, t.line 0 0 18, t.overlap 0 0 0]
        [1146446609, 325052805, 1000000000, -736575612]) = true := by
  decide +kernel

/-- V29, the impulse in the last of the 18 steps. -/
theorem test_synth :
    runs (.synth 0 0) (withLines (List.replicate 17 0 ++ [1]) State.reset)
      (fun t => near [t.hist 0 0, t.hist 0 16, t.hist 0 48, t.hist 0 64] [707106781, 0, -1000000000, 0]) = true := by
  decide +kernel

/-- V29b. -/
theorem test_pcmConvert :
    runs (.pcmConvert (fOfInt 1)) State.reset (fun t => t.ret == .ints [32767]) = true ∧
    runs (.pcmConvert 0xBFC00000#32) State.reset (fun t => t.ret == .ints [-32768]) = true ∧
    runs (.pcmConvert 0xB7A7C5AC#32) State.reset (fun t => t.ret == .ints [-1]) = true := by
  decide +kernel

/-- V29c: the last sample; one coded channel goes to both outputs. -/
theorem test_pcmPack :
    runs (.pcmPack 1 17 31 1 0xBFC00000#32) State.reset (fun t => t.pcm == [(4606, 0x00#8), (4607, 0x80#8)]) = true ∧
    runs (.pcmPack 0 0 0 0 (fOfInt 1)) (withHdr (hdrOf false .single 0 104) State.reset)
      (fun t => t.pcm == [(0, 0xFF#8), (1, 0x7F#8), (2, 0xFF#8), (3, 0x7F#8)]) = true := by
  decide +kernel

/-- V30: the frame size before the image. -/
theorem test_frame_size :
    runs (.frame (frameOf false .stereo 0 2001 (zeroBytes 5) [])) State.reset (fun t => raisedAt t .frameSize ⟨.loadsi, 0, 0⟩) = true := by
  decide +kernel

/-- P2 step 2, with less main data: the frame is kept in the reservoir. -/
theorem test_frame_skip :
    runs (.frame (frameOf false .stereo 0 40 (bytes [2, 0x80] ++ zeroBytes 30) (bytes [1, 2, 3, 4]))) State.reset
      (fun t => t.outcome == .skipped .rsvInsufficient && t.rsv == bytes [1, 2, 3, 4] && t.status == ⟨false, true, false⟩) = true := by
  decide +kernel

/-- 60_exceptions R286, R287. -/
theorem test_cause :
    runs .causeHuffIllegal { State.reset with seq := ⟨.hufGranule, 1, 0⟩ }
      (fun t => raisedAt t .huffIllegal ⟨.hufGranule, 1, 0⟩ && t.outcome == .formatError .huffIllegal && t.status.fault) = true := by
  decide +kernel

/-- 60_exceptions R287: the twelve codes. -/
theorem test_decode_causes :
    ([0b00000001, 0b00000010, 0b00000011, 0b00000100, 0b00000101, 0b00000110, 0b00000111, 0b00001000, 0b00001001, 0b00010000, 0b00010001,
      0b00100000] : List Byte).map (fun c => decode [0x60#8, c]) =
    ([.causeFrameSize, .causeMainSize, .causeBitsOverrun, .causeScfCount, .causeHuffTableReserved, .causeHuffIllegal, .causeLineRange,
      .causeRegionRange, .causeStereoBlockMismatch, .causeSiTruncated, .causeMainTruncated, .causeRsvInsufficient] : List Instr).map
      fun i => .ok (i, []) := by
  decide +kernel

/-- 30_encoding R96, R97: the other prefixes (20, 9 and 10 bits). -/
theorem test_decode_heads :
    decode [0x53#8, 0b10101010#8, 0b11010011#8, 0b01100000#8] = .ok (.siHeadM1Stereo 0b101010101#9 0b101#3 0b0011#4 0b0110#4, []) ∧
    decode [0x54#8, 0b10100101#8, 0b10000000#8] = .ok (.siHeadLsfMono 0b10100101#8 1#1, []) ∧
    decode [0x55#8, 0b10100101#8, 0b10000000#8] = .ok (.siHeadLsfStereo 0b10100101#8 0b10#2, []) := by
  decide +kernel

/-! ### Witnesses: the hypotheses of the statements are met -/

/-- A bit of a byte sequence, by its position. -/
theorem seqBit_eq_bitsOf (l : List Byte) (p : Nat) : seqBit l p = (bitsOf l).getD p false := by
  induction l generalizing p with
  | nil => simp [seqBit, bitsOf]
  | cons b t ih =>
    rw [bitsOf]
    by_cases h : p < 8
    · have hb : ∀ (b : BitVec 8) (k : Fin 8),
          b.toNat.testBit (7 - k.val % 8) = ((List.range 8).map fun i => b.getMsbD i).getD k.val false := by
        decide +kernel
      have hl : ((List.range 8).map fun i => b.getMsbD i).length = 8 := by simp
      have hd : p / 8 = 0 := by omega
      rw [List.getD_append _ _ _ _ (by omega), ← hb b ⟨p, h⟩]
      simp [seqBit, hd]
    · have hl : ((List.range 8).map fun i => b.getMsbD i).length = 8 := by simp
      have hd : p / 8 = (p - 8) / 8 + 1 := by omega
      have hm : p % 8 = (p - 8) % 8 := by omega
      rw [List.getD_append_right _ _ _ _ (by omega), hl, ← ih]
      simp [seqBit, hd, hm]

/-- Any bits can stand at the cursor, whatever else the state holds. -/
theorem holds_packed (w : List Bool) (s : State) : Holds { s with md := packBits w, bitpos := 0 } w := by
  obtain ⟨h1, h2⟩ := packBits_spec w
  refine ⟨?_, fun k hk => ?_⟩
  · show w.length = 0 ∨ 0 + w.length ≤ 8 * (packBits w).length
    omega
  · show seqBit (packBits w) (0 + k) = _
    rw [Nat.zero_add, seqBit_eq_bitsOf, h1, List.getD_append _ _ _ _ hk]

/-- A host command, another instruction with `bench` on and off, an empty port, bytes that are nothing. -/
theorem witness_StepRunsDecoded :
    decode [0x01#8] = .ok (.reset, []) ∧ decode [0x05#8] = .ok (.bcPos, []) ∧ (State.reset.withFetchWord 8 0x05).bench = true ∧
    State.reset.bench = false ∧ ¬(Instr.bcPos = .reset ∨ (∃ r, Instr.bcPos = .frame r) ∨ ∃ k fs, Instr.bcPos = .prime k fs) ∧
    State.reset.port = [] ∧
    DecodeError.unassigned 0x07#8 ≠ .empty ∧ decode [0x07#8, 0x01#8] = .error (.unassigned 0x07#8) :=
  ⟨rfl, rfl, rfl, rfl, (by rintro (h | ⟨_, h⟩ | ⟨_, _, h⟩) <;> cases h), rfl, nofun, rfl⟩

theorem witness_DecodeEncode :
    Instr.wf (.frame (frameOf false .stereo 0 417 (zeroBytes 32) (zeroBytes 381))) = true ∧
    Instr.wf (.pairItem 24 15 15 15 0 true true) = true ∧ Instr.wf (.quadA1010 0b1000#4) = true ∧
    Instr.wf (.reqL 1 1 (BitVec.ofInt 16 (-8206)) 21) = true ∧ Instr.wf (.bcSetpos 4294967295) = true := by
  decide +kernel

/-- Both ends of every unassigned range (30_encoding R92). -/
theorem witness_UnassignedOpids :
    decode [0x07#8] = .error (.unassigned 0x07#8) ∧ decode [0x0C#8] = .error (.unassigned 0x0C#8) ∧
    decode [0x0F#8] = .error (.unassigned 0x0F#8) ∧ decode [0x13#8] = .error (.unassigned 0x13#8) ∧
    decode [0x17#8] = .error (.unassigned 0x17#8) ∧ decode [0x1D#8] = .error (.unassigned 0x1D#8) ∧
    decode [0x1F#8] = .error (.unassigned 0x1F#8) ∧ decode [0x28#8] = .error (.unassigned 0x28#8) ∧
    decode [0x3F#8] = .error (.unassigned 0x3F#8) ∧ decode [0x27#8] = .error .truncated := by
  decide +kernel

/-- A state of the invariant with `PCM` written and `SKIP` set, and its next step. -/
def keptState : State :=
  { State.reset with
    pcm := [(0, 1#8), (5, 0#8)], status := ⟨false, true, false⟩, cause := .rsvInsufficient, port := [0x08#8],
    bench := true }

theorem witness_InvariantKept :
    Inv keptState ∧
    step keptState = .next (takeException .mainSize [] { keptState with port := [], seq := ⟨.rsvCheck, 0, 0⟩ }) := by
  refine ⟨⟨by decide, by decide, by decide, by decide, by decide⟩, rfl⟩

/-- A state with `FAULT` set. -/
def faulted : State := { State.reset with status := ⟨true, false, false⟩, cause := .mainSize }

theorem witness_FaultSticky :
    runs .reset faulted (fun t => !t.status.fault) = true ∧ faulted.status.fault = true ∧
    (frameOf false .stereo 0 36 (zeroBytes 32) []).wf = true := by
  decide +kernel

theorem witness_WritersOfPersistentState :
    runs .bcPos State.reset (fun t => t.free == State.reset.free) = true ∧ writesStore .bcPos = false ∧ writesVvec .bcPos = false ∧
    writesRsv .bcPos = false ∧ writesMd .bcPos = false ∧ writesPcm .bcPos = false ∧ writesHdr .bcPos = false := by
  decide +kernel

/-- Up to the last bit; and no bit, past the end. -/
theorem witness_GetBitsReads :
    Fits (withMd [1, 2, 3, 4] 0 State.reset) 32 ∧ Fits (withMd [1, 2, 3, 4] 31 State.reset) 1 ∧
    Fits (withMd [1, 2, 3, 4] 100 State.reset) 0 :=
  ⟨.inr (by decide), .inr (by decide), .inl rfl⟩

/-- By one bit; and with no byte at all. -/
theorem witness_OverRead : ¬Fits (withMd [1, 2, 3, 4] 31 State.reset) 2 ∧ ¬Fits State.reset 1 := by
  unfold Fits; decide

/-- Main-data sizes 0, 1500, -1 and 1501; as many bytes as that, and one less. -/
theorem witness_ReservoirChecks :
    (hdrOf false .stereo 0 36).mainSize = 0 ∧ (hdrOf false .stereo 0 1536).mainSize = 1500 ∧
    (hdrOf false .stereo 0 35).mainSize = -1 ∧ (hdrOf false .stereo 0 1537).mainSize = 1501 ∧
    (hdrOf false .stereo 0 40).mainSize ≤ ([1#8, 2#8, 3#8, 4#8] : List Byte).length ∧
    (([1#8, 2#8, 3#8] : List Byte).length : Int) < (hdrOf false .stereo 0 40).mainSize := by
  decide

/-- All the history, and none. -/
theorem witness_ReservoirSplice :
    ({ State.reset with rsv := bytes [1, 2, 3], si := { SideInfo.zero with mainDataBegin := 3 } } : State).si.mainDataBegin.toNat ≤
      (bytes [1, 2, 3]).length ∧
    State.reset.si.mainDataBegin.toNat ≤ State.reset.rsv.length := by
  decide

theorem witness_LoadsiChecks :
    2000 < (hdrOf false .stereo 0 2001).frameSize.toNat ∧ (hdrOf false .stereo 0 2000).frameSize.toNat ≤ 2000 ∧
    (zeroBytes 31).length < (hdrOf false .stereo 0 2000).siSize ∧ (hdrOf false .stereo 0 2000).siSize ≤ (zeroBytes 32).length := by
  decide

/-- Groups of both layouts, with and without window switching. -/
theorem witness_LoadsiMpeg1 :
    isM1 (.m1On ⟨4095, 511, 255⟩ 15 ⟨.short, true, 31, 31, 7, 7, 7⟩ true ⟨true, true⟩) = true ∧
    isM1 (.m1Off ⟨0, 0, 0⟩ 0 ⟨31, 31, 31, 15, 7⟩ false ⟨false, false⟩) = true ∧
    (hdrOf false .single 0 2000).lsf = false ∧ (hdrOf false .single 0 2000).frameSize.toNat ≤ 2000 ∧
    (hdrOf false .single 0 2000).mode = .single ∧ (hdrOf false .dual 0 2000).mode ≠ .single := by
  decide

theorem witness_LoadsiLsf :
    isM1 (.lsfOn ⟨4095, 511, 255⟩ 511 ⟨.short, true, 31, 31, 7, 7, 7⟩ ⟨true, true⟩) = false ∧
    isM1 (.lsfOff ⟨0, 0, 0⟩ 0 ⟨31, 31, 31, 15, 7⟩ ⟨false, false⟩) = false ∧
    (hdrOf true .single 0 2000).lsf = true ∧ (hdrOf true .single 0 2000).frameSize.toNat ≤ 2000 ∧
    (hdrOf true .single 0 2000).mode = .single ∧ (hdrOf true .joint 0 2000).mode ≠ .single := by
  decide

/-- A header the host passes, and one for each reason it does not. -/
def goodHeader : HeaderWord := ⟨0b11#2, 0b01#2, true, 0b1001#4, 0b10#2, false, false, .joint, 0b11#2, false, true, 0b01#2⟩

theorem witness_HeaderRow :
    (goodHeader.version ≠ 1#2 ∧ goodHeader.layer ≠ 0#2 ∧ goodHeader.bitrate ≠ 15#4 ∧ goodHeader.sfreq ≠ 3#2 ∧
      goodHeader.emphasis ≠ 2#2) ∧
    ({ goodHeader with version := 1#2 } : HeaderWord).version = 1#2 ∧ ({ goodHeader with layer := 0#2 } : HeaderWord).layer = 0#2 ∧
    ({ goodHeader with bitrate := 15#4 } : HeaderWord).bitrate = 15#4 ∧ ({ goodHeader with sfreq := 3#2 } : HeaderWord).sfreq = 3#2 ∧
    ({ goodHeader with emphasis := 2#2 } : HeaderWord).emphasis = 2#2 := by
  decide

/-- All 74 bits of the widest long form; and granule 1 with every band copied, no bit at all. -/
theorem witness_ScaleFactorsLong :
    let g : Gran := { Gran.zero with scalefacCompress := 15 }
    let s := withMd (List.replicate 10 0xA5) 6 (withGran g State.reset)
    let r : State := { (State.reset.setGran 1 0 g) with si := { SideInfo.zero with gran := .both (.both g), scfsi := .both 15 } }
    (s.gran 0 0).isShort = false ∧ (longWidths s 0 0).sum = 74 ∧ s.bitpos + (longWidths s 0 0).sum ≤ 8 * s.md.length ∧
    (r.gran 1 0).isShort = false ∧ copied r 1 0 20 = true ∧ (longWidths r 1 0).sum = 0 := by
  decide +kernel

/-- All 126 bits of the widest short form. -/
theorem witness_ScaleFactorsShort :
    let s := withMd (List.replicate 16 0xA5) 2 (withGran { shortGran with scalefacCompress := 15 } State.reset)
    (s.gran 0 0).isShort = true ∧ (s.gran 0 0).mixed = false ∧
    (shortWidths (slen (s.gran 0 0).scalefacCompress.toNat) 0).sum = 126 ∧ s.bitpos + 126 ≤ 8 * s.md.length := by
  decide +kernel

/-- All 122 bits of the widest mixed form. -/
theorem witness_ScaleFactorsMixed :
    let s := withMd (List.replicate 16 0xA5) 6 (withGran { shortGran with scalefacCompress := 15, mixed := true } State.reset)
    let w := slen (s.gran 0 0).scalefacCompress.toNat
    (s.gran 0 0).isShort = true ∧ (s.gran 0 0).mixed = true ∧
    (List.replicate 8 w.1 ++ shortWidths w 3).sum = 122 ∧ s.bitpos + 122 ≤ 8 * s.md.length := by
  decide +kernel

/-- The three forms, each with its last bit the last of `MD`. -/
theorem witness_ScaleFactorsLsf :
    let a := withMd (List.replicate 10 0xA5) 6 (withGran { Gran.zero with scalefacCompress := 399 } State.reset)
    let b := withMd (List.replicate 16 0xA5) 2 (withGran { shortGran with scalefacCompress := 399 } State.reset)
    let c := withMd (List.replicate 16 0xA5) 5 (withGran { shortGran with scalefacCompress := 399, mixed := true } State.reset)
    (a.gran 0 0).blockType ≠ .short ∧ a.bitpos + (lsfWidths 0 (nslen2 399)).sum = 8 * a.md.length ∧
    (b.gran 0 0).blockType = .short ∧ (b.gran 0 0).mixed = false ∧ b.bitpos + (lsfWidths 1 (nslen2 399)).sum = 8 * b.md.length ∧
    (c.gran 0 0).blockType = .short ∧ (c.gran 0 0).mixed = true ∧ c.bitpos + (lsfWidths 2 (nslen2 399)).sum ≤ 8 * c.md.length := by
  decide +kernel

theorem witness_ScaleFactorFields :
    Fits (withMd [0xA5] 4 (withGran { Gran.zero with scalefacCompress := 15 } State.reset)) (slen 15).1 ∧
    Fits (withMd (List.replicate 4 0xA5) 8 (withGran { Gran.zero with scalefacCompress := 399 } State.reset))
      (scfPart 0 (nslen2 399).d 0 * (nslen2 399).slen.getD 0 0) :=
  ⟨.inr (by decide), .inr (by decide)⟩

/-- Escapes of the widest kind and the narrowest, pair table 1, table 0; and wherever they are to stand. -/
theorem witness_PairDecodes :
    PairCode.ok 31 ⟨15, 15, 8191, 0, true, true⟩ = true ∧ PairCode.ok 16 ⟨15, 14, 1, 0, false, true⟩ = true ∧
    PairCode.ok 1 ⟨1, 1, 0, 0, true, false⟩ = true ∧ PairCode.ok 0 ⟨0, 0, 0, 0, false, false⟩ = true ∧
    ∀ (t : Nat) (c : PairCode), Holds { State.reset with md := packBits (c.bits t), bitpos := 0 } (c.bits t) :=
  ⟨by decide, by decide, by decide, by decide, fun _ _ => holds_packed _ _⟩

theorem witness_QuadDecodes :
    wfSigns 0b1111#4 0b1111#4 = true ∧ wfSigns 0#4 0#4 = true ∧
    ∀ (q : Bool) (c : QuadCode), Holds { State.reset with md := packBits (c.bits q), bitpos := 0 } (c.bits q) :=
  ⟨by decide, by decide, fun _ _ => holds_packed _ _⟩

theorem witness_QuadItems : wfSigns 0b1010#4 0b1000#4 = true ∧ wfSigns 0b0000#4 0b0000#4 = true := by decide

/-- `BIG_VALUES` 289 and 288; region indexes that end at 21 and at 22 and at 23 of the band table; two pairs in two regions. -/
theorem witness_BigValues :
    288 < ({ Gran.zero with bigValues := 289 } : Gran).bigValues.toNat ∧
    ({ Gran.zero with bigValues := 288 } : Gran).bigValues.toNat ≤ 288 ∧
    ¬regionsOk { Gran.zero with region0 := 15, region1 := 6 } ∧ regionsOk { Gran.zero with region0 := 15, region1 := 5 } ∧
    regionsOk { shortGran with region0 := 15, region1 := 15 } ∧
    (let g : Gran := { Gran.zero with bigValues := 3, table0 := 1, table1 := 0 }
     let cs : List PairCode := [⟨1, 0, 0, 0, true, false⟩, ⟨0, 1, 0, 0, false, false⟩, ⟨0, 0, 0, 0, false, false⟩]
     let s := withGran g State.reset
     cs.length = g.bigValues.toNat ∧ cs.length ≤ 288 ∧ regionsOk g ∧ pairsOk (tableAt s g) 0 cs ∧
     tableAt s g 2 = 1 ∧ tableAt s g 4 = 0 ∧
     ∀ bits, bits = pairsBits (tableAt s g) 0 cs → Holds { s with md := packBits bits, bitpos := 0 } bits) := by
  refine ⟨by decide, by decide, ?_, ?_, ?_, by decide, by decide, ?_, ⟨by decide +kernel, by decide +kernel, by decide +kernel, trivial⟩,
    by decide +kernel, by decide +kernel, fun _ _ => holds_packed _ _⟩ <;> (unfold regionsOk; decide)

/-- One quadruple that ends the part, one that runs past it, and none (the lines are full). -/
theorem witness_Count1Region :
    loopReads true 4 4 0 [⟨0b0000#4, 0#4⟩] ∧ loopReads true 3 4 0 [⟨0b0000#4, 0#4⟩] ∧ loopReads false 40 576 0 [] ∧
    quadsOk [⟨0b0000#4, 0#4⟩] ∧
    ∀ (cs : List QuadCode) (q : Bool),
      Holds { State.reset with md := packBits (quadsBits q cs), bitpos := 0 } (quadsBits q cs) := by
  refine ⟨?_, ?_, ?_, ?_, fun _ _ => holds_packed _ _⟩
  · unfold loopReads loopReads; decide +kernel
  · unfold loopReads loopReads; decide +kernel
  · unfold loopReads; decide
  · unfold quadsOk; decide

/-- V8 and V9: two pairs of table 1, then table B's quadruples, to the last bit and past it. -/
theorem witness_GranuleDecodes :
    let g : Gran := { Gran.zero with part23Length := 18, bigValues := 2, table0 := 1, count1Table := true }
    let cs : List PairCode := [⟨1, 0, 0, 0, true, false⟩, ⟨1, 1, 0, 0, false, true⟩]
    let qs : List QuadCode := [⟨0b1001#4, 0b0001#4⟩, ⟨0b0000#4, 0#4⟩]
    let s := withGran g State.reset
    State.reset.gran 0 0 = Gran.zero ∧ Gran.zero.part23Length = 0 ∧ g.part23Length ≠ 0 ∧
    cs.length = g.bigValues.toNat ∧ cs.length ≤ 288 ∧ regionsOk g ∧ pairsOk (tableAt s g) 0 cs ∧ quadsOk qs ∧
    loopReads g.count1Table 18 (2 * cs.length) (pairsBits (tableAt s g) 0 cs).length qs ∧
    loopReads g.count1Table 17 (2 * cs.length) (pairsBits (tableAt s g) 0 cs).length qs ∧
    ∀ bits, bits = pairsBits (tableAt s g) 0 cs ++ quadsBits g.count1Table qs →
      Holds { s with md := packBits bits, bitpos := 0 } bits := by
  refine ⟨rfl, rfl, by decide, rfl, by decide, ?_, ⟨by decide +kernel, by decide +kernel, trivial⟩, ?_, ?_, ?_, fun _ _ => holds_packed _ _⟩
  · unfold regionsOk; decide
  · unfold quadsOk; decide
  · unfold loopReads loopReads loopReads; decide +kernel
  · unfold loopReads loopReads loopReads; decide +kernel

theorem witness_GranulePostcondition :
    runs (.hufGranule 0 0 0)
      (withMd [0x61, 0x67, 0xC0] 0
        (withGran { Gran.zero with part23Length := 18, bigValues := 2, table0 := 1, count1Table := true } State.reset))
      (fun t => t.seq == ⟨.hufGranule, 0, 0⟩) = true := by
  decide +kernel

theorem witness_RequantizeElements :
    (BitVec.ofInt 16 8206).toInt.natAbs ≤ 8206 ∧ (BitVec.ofInt 16 (-8206)).toInt.natAbs ≤ 8206 ∧ (0 : BitVec 16).toInt.natAbs ≤ 8206 := by
  decide

/-- The last line of the last band, below and from `COUNT1` on. -/
theorem witness_RequantizeLong :
    let s := withLines [7] (withGran { Gran.zero with count1 := 576 } State.reset)
    (s.gran 0 0).isShort = false ∧ (s.gran 0 0).count1.toNat = 576 ∧ s.longRow.getD 21 0 ≤ 575 ∧ 575 < s.longRow.getD 22 0 ∧
    s.line 0 0 0 = fOfInt 7 ∧ s.longRow.getD 0 0 ≤ 0 ∧ 0 < s.longRow.getD 1 0 ∧
    (State.reset.gran 0 0).count1.toNat ≤ 0 := by
  decide +kernel

/-- The last line of the first window of band 0; the band 1 that `COUNT1` leaves out; a mixed granule's line 35 and band 3. -/
theorem witness_RequantizeShort :
    let s := withLines [5, 6, 7, 8] (withGran { shortGran with count1 := 12 } State.reset)
    let m := withLines [5, 6, 7, 8] (withGran { shortGran with mixed := true, count1 := 40 } State.reset)
    (s.gran 0 0).isShort = true ∧ (s.gran 0 0).mixed = false ∧ 3 < s.shortRow.getD 1 0 - s.shortRow.getD 0 0 ∧
    3 * s.shortRow.getD 0 0 < (s.gran 0 0).count1.toNat ∧ (s.gran 0 0).count1.toNat ≤ 3 * s.shortRow.getD 1 0 ∧
    s.line 0 0 3 = fOfInt 8 ∧
    (m.gran 0 0).isShort = true ∧ (m.gran 0 0).mixed = true ∧ m.longRow.getD 7 0 ≤ 35 ∧ 35 < m.longRow.getD 8 0 ∧
    m.line 0 0 35 = fOfInt 0 ∧ 3 * m.shortRow.getD 3 0 < (m.gran 0 0).count1.toNat := by
  decide +kernel

/-- The largest and smallest integers, and 0; a line and its negative in two states; both ends of the exponents. -/
theorem witness_RequantizeLaws :
    State.reset.line 0 0 0 = 0#32 ∧
    (BitVec.ofInt 16 8206).toInt.natAbs = 8206 ∧ (BitVec.ofInt 16 (-8206)).toInt.natAbs = 8206 ∧ (0#16).toInt = 0 ∧
    (State.reset.setLine 0 0 0 (fOfInt 8206)).line 0 0 0 = fOfInt 8206 ∧
    ({ State.reset.setLine 0 0 0 (fOfInt 8206) with xr := (State.reset.setLine 0 0 0 (fOfInt (-8206))).xr } : State).line 0 0 0 =
      fOfInt (-8206) ∧
    fInt (gain (-326 + 4)) = 2 * fInt (gain (-326)) ∧ fInt (gain (41 + 4)) = 2 * fInt (gain 41) := by
  decide +kernel

theorem witness_Reorder :
    let s := withGran { shortGran with count1 := 12 } State.reset
    (State.reset.gran 0 0).isShort = false ∧ (s.gran 0 0).isShort = true ∧
    3 * s.shortRow.getD 0 0 < (s.gran 0 0).count1.toNat ∧ ¬3 * s.shortRow.getD 1 0 < (s.gran 0 0).count1.toNat ∧
    3 < s.shortRow.getD 1 0 - s.shortRow.getD 0 0 ∧ 0 < s.shortRow.getD 13 0 - s.shortRow.getD 12 0 := by
  decide +kernel

theorem witness_MidSide :
    (hdrOf false .stereo 3 417).mode ≠ .joint ∧ (hdrOf false .joint 0 417).modeExt = 0#2 ∧
    (hdrOf false .joint 2 417).mode = .joint ∧ (hdrOf false .joint 2 417).modeExt = 2#2 := by
  decide

theorem witness_StereoMismatch :
    (hdrOf false .joint 1 417).mode = .joint ∧ (hdrOf false .joint 1 417).modeExt.getLsbD 0 = true ∧
    (hdrOf false .joint 2 417).modeExt.getLsbD 0 = false ∧ shortGran.isShort ≠ Gran.zero.isShort ∧
    shortGran.isShort = true ∧ shortGran.mixed ≠ ({ shortGran with mixed := true } : Gran).mixed ∧
    shortGran.isShort = shortGran.isShort ∧ shortGran.mixed = shortGran.mixed := by
  decide

/-- The last line that can be an intensity line, and the first of band 21; a position below 7 and one not. -/
theorem witness_IntensityLong :
    let s := withHdr (hdrOf false .joint 1 417) (State.reset.setScfLong 0 1 20 7)
    s.hdr.mode = .joint ∧ s.hdr.modeExt.getLsbD 0 = true ∧ (s.gran 0 0).isShort = false ∧ (s.gran 0 1).isShort = false ∧
    s.longRow.getD 20 0 ≤ 417 ∧ 417 < s.longRow.getD 21 0 ∧ s.longRow.getD 21 0 ≤ 418 ∧ 418 < s.longRow.getD 22 0 ∧
    (s.gran 0 1).count1.toNat ≤ s.longRow.getD 20 0 ∧ 7 ≤ (s.scfLong 0 1 20).toNat ∧ (s.scfLong 0 1 19).toNat < 7 := by
  decide +kernel

/-- The last eligible short band and the one after it; a mixed granule's band 3 and line 35. -/
theorem witness_IntensityShort :
    let s := withHdr (hdrOf false .joint 1 417) ((State.reset.setGran 0 0 shortGran).setGran 0 1 shortGran)
    let mg : Gran := { shortGran with mixed := true }
    let m := withHdr (hdrOf false .joint 3 417) ((State.reset.setGran 0 0 mg).setGran 0 1 mg)
    s.hdr.mode = .joint ∧ s.hdr.modeExt.getLsbD 0 = true ∧ (s.gran 0 0).isShort = true ∧ (s.gran 0 1).isShort = true ∧
    (s.gran 0 0).mixed = (s.gran 0 1).mixed ∧ 0 < s.shortRow.getD 12 0 - s.shortRow.getD 11 0 ∧
    0 < s.shortRow.getD 13 0 - s.shortRow.getD 12 0 ∧
    m.hdr.modeExt.getLsbD 0 = true ∧ (m.gran 0 0).isShort = true ∧ (m.gran 0 1).isShort = true ∧
    (m.gran 0 0).mixed = true ∧ (m.gran 0 0).mixed = (m.gran 0 1).mixed ∧ m.longRow.getD 7 0 ≤ 35 ∧ 35 < m.longRow.getD 8 0 := by
  decide +kernel

/-- The last butterfly of a long granule, the only boundary of a mixed one, no boundary of a short one; a line of none. -/
theorem witness_Antialias :
    Gran.zero.isShort = false ∧ (1 ≤ 31 ∧ 31 < 32 ∧ 7 < 8) ∧ ({ shortGran with mixed := true } : Gran).isShort = true ∧
    ({ shortGran with mixed := true } : Gran).mixed = true ∧ (1 ≤ 1 ∧ 1 < 2) ∧ shortGran.isShort = true ∧ shortGran.mixed = false ∧
    ∀ sb i : Nat, 1 ≤ sb → sb < 32 → i < 8 → 0 ≠ 18 * sb - 1 - i ∧ 0 ≠ 18 * sb + i := by
  refine ⟨by decide, by decide, by decide, by decide, by decide, by decide, by decide, fun sb i _ _ _ => by omega⟩

theorem witness_InverseTransforms : BlockType.normal ≠ .short ∧ BlockType.start ≠ .short ∧ BlockType.stop ≠ .short := by decide

theorem witness_OverlapAdd : (17 < 18) ∧ (31 : Nat) ≠ (30 : Fin 32).val ∧ (1 : Fin 2) ≠ 0 := by decide

theorem witness_HybridSynthesis :
    let g : Gran := { shortGran with mixed := true }
    (1 : Fin 2) ≠ 0 ∧ (31 < 32 ∧ 17 < 18) ∧ (g.winSwitch = true ∧ g.mixed = true ∧ 1 < 2) ∧ ¬(2 < 2) := by
  decide

theorem witness_HybridSilence : State.reset.lines 0 0 = zeros 576 ∧ State.reset.store.get 0 = zeros 576 := ⟨rfl, rfl⟩

theorem witness_FrequencyInversion : (31 < 32 ∧ 17 < 18) ∧ (31 % 2 = 1 ∧ 17 % 2 = 1) ∧ ¬(0 % 2 = 1) := by decide

/-- The largest finite product and zero of either sign. -/
theorem witness_PcmConversion :
    fFinite (fMul (fOfInt 1) (fOfInt 32767)) = true ∧ fFinite (fMul 0x77000000#32 (fOfInt 32767)) = true ∧
    fUnits 0x80000000#32 = 0 ∧ fFinite 0x80000000#32 = true ∧ fUnits 0#32 = 0 ∧ fFinite 0#32 = true := by
  decide +kernel

theorem witness_PcmPack :
    OutputOf (withHdr (hdrOf false .single 0 104) State.reset) 0 1 ∧ OutputOf State.reset 1 1 ∧
    ∀ c : Fin 2, OutputOf State.reset 1 c → 0 ≠ 2304 * 0 + 4 * (32 * 0 + 0) + 2 * c.val ∧ 0 ≠ 2304 * 0 + 4 * (32 * 0 + 0) + 2 * c.val + 1 := by
  unfold OutputOf; decide

theorem witness_Synthesis :
    OutputOf (withHdr (hdrOf false .single 0 104) State.reset) 0 1 ∧ OutputOf State.reset 1 1 ∧ (1 : Fin 2) ≠ 0 ∧ (17 < 18 ∧ 31 < 32) ∧
    4607 < 2304 * 1 + 2304 ∧ 2303 < 2304 * 1 := by
  unfold OutputOf; decide

/-- The record of each clause. -/
theorem witness_FrameCheckOrder :
    State.reset.status.fault = false ∧ State.reset.rsv.length = 0 ∧
    (frameOf false .stereo 0 2001 [] []).wf = true ∧ 2000 < (hdrOf false .stereo 0 2001).frameSize.toNat ∧
    (frameOf false .stereo 0 2000 (zeroBytes 31) []).wf = true ∧ (zeroBytes 31).length < (hdrOf false .stereo 0 2000).siSize ∧
    (frameOf false .stereo 0 35 (zeroBytes 32) []).wf = true ∧ (hdrOf false .stereo 0 35).mainSize < 0 ∧
    (frameOf false .stereo 0 1537 (zeroBytes 32) []).wf = true ∧ 1500 < (hdrOf false .stereo 0 1537).mainSize ∧
    (frameOf false .stereo 0 1536 (zeroBytes 32) []).wf = true ∧ (([] : List Byte).length : Int) < (hdrOf false .stereo 0 1536).mainSize ∧
    (frameOf false .stereo 0 36 ([0#8, 0x80#8] ++ zeroBytes 30) []).wf = true ∧
    ([0#8, 0x80#8] ++ zeroBytes 30).length = (hdrOf false .stereo 0 36).siSize ∧
    (([] : List Byte).length : Int) = (hdrOf false .stereo 0 36).mainSize ∧
    (unpackSi (hdrOf false .stereo 0 36) ([0#8, 0x80#8] ++ zeroBytes 30) State.reset.si).mainDataBegin.toNat = 1 := by
  decide +kernel

theorem witness_FrameOutcomes :
    (frameOf false .stereo 0 36 (zeroBytes 32) []).wf = true ∧ (frameOf false .stereo 0 36 (zeroBytes 32) [0#8]).wf = false ∧
    State.reset.status.fault = false := by
  decide +kernel

theorem witness_ReservoirAfterFrame :
    let r := frameOf false .stereo 0 38 ([1#8] ++ zeroBytes 31) [7#8, 8#8]
    let s : State := { State.reset with rsv := bytes [1, 2, 3] }
    s.status.fault = false ∧ r.hdr.frameSize.toNat ≤ 2000 ∧ r.siImage.length = r.hdr.siSize ∧
    (r.main.length : Int) = r.hdr.mainSize ∧ r.main.length ≤ 1500 ∧
    (unpackSi r.hdr r.siImage s.si).mainDataBegin.toNat = 2 ∧ 2 ≤ s.rsv.length := by
  decide +kernel

theorem witness_SilentFrame :
    let r := frameOf true .joint 3 23 (zeroBytes 17) [7#8, 8#8]
    State.reset.status.fault = false ∧ State.reset.store = .both (zeros 576) ∧ State.reset.vvec = .both (zeros 1024) ∧
    r.siImage = List.replicate r.hdr.siSize 0#8 ∧ (r.main.length : Int) = r.hdr.mainSize ∧ r.main.length ≤ 1500 ∧
    r.hdr.frameSize.toNat ≤ 2000 :=
  ⟨rfl, rfl, rfl, by decide, by decide, by decide, by decide⟩

/-- `k = 1` and `k = 2`. -/
theorem witness_PrimeExpands :
    let r := frameOf false .stereo 0 36 (zeroBytes 32) []
    (1 ≤ 1 ∧ 1 < [r, r].length) ∧ (1 ≤ 2 ∧ 2 < [r, r, r].length) ∧ ∀ x ∈ [r, r, r], x.wf = true := by
  decide

theorem witness_RaiseRecords :
    (Instr.causeScfCount, Cause.scfCount) ∈ ([(.causeFrameSize, .frameSize), (.causeScfCount, .scfCount)] : List (Instr × Cause)) := by
  decide

end Sys2Proof.Tests
end

section
/-! The state's files and memories (10_state): the invariant after reset (O5), and who writes `STORE`, `VVEC`, `RSV`, `MD`, `PCM`
and `HDR` (O8). -/

namespace Sys2Proof.Machine

open Sys2Proof.Claims

/-- Settles O5: `PCM` is empty, `SEQ` and `WHERE` are idle, every flag of `STATUS` is 0. -/
theorem invariantAtReset : Obligations.InvariantAtReset :=
  ⟨reset_pcm_wf, rfl, rfl, nofun, fun h => h.elim nofun nofun⟩

/-! ### What every instruction does to the model's own fields -/

/-- `port` and `bench` are as they were, and the count of free values has not gone down. -/
def Advances (s t : State) : Prop := t.port = s.port ∧ t.bench = s.bench ∧ s.free ≤ t.free

theorem Advances.refl (s : State) : Advances s s := ⟨rfl, rfl, le_rfl⟩

theorem Advances.trans {s t u : State} (h : Advances s t) (k : Advances t u) : Advances s u :=
  ⟨k.1.trans h.1, k.2.1.trans h.2.1, h.2.2.trans k.2.2⟩

theorem Advances.of_control {s t : State} (h : t.control = s.control) : Advances s t := by
  obtain ⟨-, -, -, -, ⟨hport, hbench⟩, -, -, hfree⟩ := State.control_eq h
  exact ⟨hport, hbench, hfree.ge⟩

theorem takeException_advances (c : Cause) (ops : List Byte) (s : State) : Advances s (takeException c ops s) := by
  refine ⟨takeException_port c ops s, takeException_bench c ops s, ?_⟩
  rw [takeException_free]
  split <;> omega

theorem resetState_advances (s : State) : Advances s (resetState s) :=
  ⟨resetState_port s, resetState_bench s, by rw [resetState_free]; omega⟩

/-- `RESET` takes free values, so nothing that goes on from it has the old count. -/
theorem Advances.free_lt_of_reset {s t : State} (h : Advances (resetState s) t) : s.free < t.free := by
  have := h.2.2
  rw [resetState_free] at this
  omega

theorem frameNext_advances (r : FrameRec) (s : State) : Advances s (frameNext r s) := by
  have hsetup : Advances s (frameSetup r s) := ⟨rfl, rfl, le_rfl⟩
  have hframe := opFrame_framed r (frameSetup r s)
  unfold frameNext
  split
  · exact ⟨rfl, rfl, le_rfl⟩
  · split
    next t ht =>
      rw [ht] at hframe
      exact (hsetup.trans (.of_control hframe.1)).trans ⟨rfl, rfl, le_rfl⟩
    next c t ht =>
      rw [ht] at hframe
      exact (hsetup.trans (.of_control hframe.2.1)).trans (takeException_advances c _ t)

theorem execFrame_advances {r : FrameRec} {s t : State} (e : execFrame r s = .next t) : Advances s t := by
  unfold execFrame at e
  split at e
  · exact Host.Outcome.next.inj e ▸ frameNext_advances r s
  · cases e

/-- `PRIME` goes on from `RESET`. -/
theorem execPrime_advances {k : Nat} {frames : List FrameRec} {s t : State} (e : execPrime k frames s = .next t) :
    Advances (resetState s) t := by
  unfold execPrime at e
  split at e
  · exact Host.Outcome.next.inj e ▸ foldl_keeps (P := Advances (resetState s)) _ _ _ (.refl _) fun r _ t k =>
      k.trans (frameNext_advances r t)
  · cases e

theorem writesControl_iff (i : Instr) : writesControl i = true ↔
    i = .idle ∨ i = .reset ∨ (∃ r, i = .frame r) ∨ (∃ k fs, i = .prime k fs) ∨ ∃ h, i = .header h := by
  cases i <;> simp [writesControl]

theorem Answers.advances {i : Instr} {s t : State} (h : Answers i s t) : Advances s t := by
  obtain ⟨u, ⟨hcontrol, -, -⟩, -, ⟨r, rfl⟩ | ⟨c, ops, -, rfl⟩⟩ := h
  · exact (Advances.of_control hcontrol).trans ⟨rfl, rfl, le_rfl⟩
  · exact (Advances.of_control hcontrol).trans (takeException_advances c ops u)

theorem execHeader_next {h : HeaderWord} {s t : State} (e : execHeader h s = .next t) :
    t = s ∨ t = { s with hdr := headerHdr h } := by
  unfold execHeader at e
  split at e
  · exact .inr (Host.Outcome.next.inj e).symm
  · exact .inl (Host.Outcome.next.inj e).symm

theorem exec_advances {i : Instr} {s t : State} (e : exec i s = .next t) : Advances s t := by
  cases hw : writesControl i with
  | false => exact (exec_answers i hw e).advances
  | true =>
    obtain rfl | rfl | ⟨r, rfl⟩ | ⟨k, fs, rfl⟩ | ⟨h, rfl⟩ := (writesControl_iff i).1 hw
    · obtain rfl := Host.Outcome.next.inj e
      exact ⟨rfl, rfl, le_rfl⟩
    · obtain rfl := Host.Outcome.next.inj e
      exact resetState_advances s
    · exact execFrame_advances e
    · exact (resetState_advances s).trans (execPrime_advances e)
    · obtain rfl | rfl := execHeader_next e
      · exact .refl _
      · exact ⟨rfl, rfl, le_rfl⟩

/-! ### What an instruction writes of the persistent files and memories -/

/-- Every file and memory that `i` is not a writer of is as it was. -/
def WritesOwn (i : Instr) (s t : State) : Prop :=
  (writesStore i = false → t.store = s.store) ∧
  (writesVvec i = false → t.vvec = s.vvec) ∧
  (writesRsv i = false → t.rsv = s.rsv) ∧
  (writesMd i = false → t.md = s.md) ∧
  (writesPcm i = false → t.pcm = s.pcm) ∧
  (writesHdr i = false → t.hdr = s.hdr)

theorem WritesOwn.trans {i : Instr} {s t u : State} (h : WritesOwn i s t) (k : WritesOwn i t u) : WritesOwn i s u := by
  obtain ⟨hs, hv, hr, hm, hp, hh⟩ := h
  obtain ⟨ks, kv, kr, km, kp, kh⟩ := k
  exact ⟨fun w => (ks w).trans (hs w), fun w => (kv w).trans (hv w), fun w => (kr w).trans (hr w),
    fun w => (km w).trans (hm w), fun w => (kp w).trans (hp w), fun w => (kh w).trans (hh w)⟩

theorem WritesOwn.of_kept {i : Instr} {s t : State} (hfiles : t.persistent = s.persistent) (hhdr : t.hdr = s.hdr) :
    WritesOwn i s t := by
  obtain ⟨hs, hv, hr, hm, hp⟩ := State.persistent_eq hfiles
  exact ⟨fun _ => hs, fun _ => hv, fun _ => hr, fun _ => hm, fun _ => hp, fun _ => hhdr⟩

/-- A raise that takes no free value is `Skipped`, which keeps what it does not record (60_exceptions R290). -/
theorem takeException_kept {c : Cause} {ops : List Byte} {s : State} (h : (takeException c ops s).free = s.free) :
    (takeException c ops s).persistent = s.persistent ∧ (takeException c ops s).hdr = s.hdr := by
  have hskip : c.exn = .skipped := by
    by_contra hc
    rw [takeException_free, if_neg hc] at h
    omega
  rw [takeException, hskip]
  exact ⟨rfl, rfl⟩

/-- An operation that writes no memory, whether it completes or raises. -/
theorem Answers.writesOwn {i : Instr} {s t : State} (h : Answers i s t) (hw : writesPersistent i = false)
    (hfree : t.free = s.free) : WritesOwn i s t := by
  obtain ⟨u, ⟨hcontrol, -, -⟩, hfiles, hend⟩ := h
  obtain ⟨-, -, -, hhdr, -, -, -, hufree⟩ := State.control_eq hcontrol
  refine WritesOwn.trans (.of_kept (hfiles hw) hhdr) ?_
  obtain ⟨r, rfl⟩ | ⟨c, ops, -, rfl⟩ := hend
  · exact .of_kept rfl rfl
  · have hkept := takeException_kept (hfree.trans hufree.symm)
    exact .of_kept hkept.1 hkept.2

theorem overlapAdd_writesOwn {i : Instr} (hi : writesStore i = true) (gr ch : Fin 2) (sb : Nat) (raw : Bank F32 36) (s : State) :
    WritesOwn i s (overlapAdd gr ch sb raw s) :=
  ⟨fun h => absurd (h.symm.trans hi) nofun, fun _ => rfl, fun _ => rfl, fun _ => rfl, fun _ => rfl, fun _ => rfl⟩

theorem setHist_writesOwn {i : Instr} (hi : writesVvec i = true) (ch : Fin 2) (v : History) (s : State) :
    WritesOwn i s (s.setHist ch v) :=
  ⟨fun _ => rfl, fun h => absurd (h.symm.trans hi) nofun, fun _ => rfl, fun _ => rfl, fun _ => rfl, fun _ => rfl⟩

theorem packSample_writesOwn {i : Instr} (hi : writesPcm i = true) (gr ch : Fin 2) (t : Nat) (x : F32) (s : State) :
    WritesOwn i s (packSample gr ch t x s) :=
  ⟨fun _ => rfl, fun _ => rfl, fun _ => rfl, fun _ => rfl, fun h => absurd (h.symm.trans hi) nofun, fun _ => rfl⟩

theorem opHyb_writesOwn (gr ch : Fin 2) (s : State) : (opHyb gr ch s).Ends (WritesOwn (.hyb gr ch) s) :=
  foldl_keeps (P := WritesOwn (.hyb gr ch) s) _ _ _ (.of_kept rfl rfl) fun _ _ _ k =>
    k.trans (overlapAdd_writesOwn rfl _ _ _ _ _)

theorem synthStep_writesOwn (gr ch : Fin 2) (ss : Nat) (s : State) : WritesOwn (.synth gr ch) s (synthStep gr ch ss s) :=
  foldl_keeps (P := WritesOwn (.synth gr ch) s) _ _ _ (setHist_writesOwn rfl _ _ _) fun _ _ _ k =>
    k.trans (packSample_writesOwn rfl _ _ _ _ _)

theorem opSynth_writesOwn (gr ch : Fin 2) (s : State) : (opSynth gr ch s).Ends (WritesOwn (.synth gr ch) s) :=
  foldl_keeps (P := WritesOwn (.synth gr ch) s) _ _ _ (.of_kept rfl rfl) fun ss _ t k =>
    k.trans (synthStep_writesOwn gr ch ss t)

theorem writesPersistent_iff (i : Instr) : writesPersistent i = true ↔
    (∃ gr ch, i = .hyb gr ch) ∨ (∃ gr ch sb raw, i = .ola gr ch sb raw) ∨ (∃ gr ch, i = .synth gr ch) ∨
    (∃ gr ss k ch x, i = .pcmPack gr ss k ch x) ∨ (∃ m, i = .rsvAppend m) ∨ ∃ m, i = .rsvSplice m := by
  cases i <;> simp [writesPersistent]

/-- The six operations that write a memory. None takes a free value: `RSV.APPEND` raises `Skipped`, the others complete. -/
theorem exec_writesOwn_of_writesPersistent {i : Instr} {s t : State} (hw : writesPersistent i = true)
    (e : exec i s = .next t) : WritesOwn i s t := by
  obtain ⟨gr, ch, rfl⟩ | ⟨gr, ch, sb, raw, rfl⟩ | ⟨gr, ch, rfl⟩ | ⟨gr, ss, k, ch, x, rfl⟩ | ⟨m, rfl⟩ | ⟨m, rfl⟩ :=
    (writesPersistent_iff i).1 hw
  all_goals obtain rfl := Host.Outcome.next.inj e
  · exact opHyb_writesOwn gr ch s
  · exact overlapAdd_writesOwn rfl gr ch sb raw s
  · exact opSynth_writesOwn gr ch s
  · exact packSample_writesOwn rfl gr ch _ x s
  · exact ⟨fun _ => rfl, fun _ => rfl, nofun, fun _ => rfl, fun _ => rfl, fun _ => rfl⟩
  · exact ⟨fun _ => rfl, fun _ => rfl, nofun, nofun, fun _ => rfl, fun _ => rfl⟩

theorem exec_writesOwn {i : Instr} {s t : State} (e : exec i s = .next t) (hfree : t.free = s.free) : WritesOwn i s t := by
  cases hw : writesControl i with
  | false =>
    cases hp : writesPersistent i with
    | false => exact (exec_answers i hw e).writesOwn hp hfree
    | true => exact exec_writesOwn_of_writesPersistent hp e
  | true =>
    obtain rfl | rfl | ⟨r, rfl⟩ | ⟨k, fs, rfl⟩ | ⟨h, rfl⟩ := (writesControl_iff i).1 hw
    · obtain rfl := Host.Outcome.next.inj e
      exact .of_kept rfl rfl
    · obtain rfl := Host.Outcome.next.inj e
      exact absurd hfree (Advances.refl (resetState s)).free_lt_of_reset.ne'
    · exact ⟨nofun, nofun, nofun, nofun, nofun, nofun⟩
    · exact absurd hfree (execPrime_advances e).free_lt_of_reset.ne'
    · obtain rfl | rfl := execHeader_next e
      · exact .of_kept rfl rfl
      · exact ⟨fun _ => rfl, fun _ => rfl, fun _ => rfl, fun _ => rfl, fun _ => rfl, nofun⟩

/-- Settles O8: no instruction touches `port` and `bench` (`exec_advances`); one that takes no free value writes its own files alone
(`exec_writesOwn`). -/
theorem writersOfPersistentState : Obligations.WritersOfPersistentState := fun _ _ _ e =>
  have hkept := exec_advances e
  ⟨⟨hkept.1, hkept.2.1⟩, exec_writesOwn e⟩

end Sys2Proof.Machine
end

section
/-! The machine's invariant (60_exceptions R293): every step keeps it (O6). -/

namespace Sys2Proof.Machine

/-! ### The invariant under what an operation, a raise, `RESET` and a `FRAME` do -/

/-- The invariant reads the control registers, the place in the sequence and `PCM`, which an operation of a frame keeps. -/
theorem Framed.inv {s u : State} (h : Framed s u) (hs : Inv s) : Inv u := by
  obtain ⟨hcontrol, hseq, hpcm⟩ := h
  obtain ⟨hstatus, hcause, hwhr, -⟩ := State.control_eq hcontrol
  obtain ⟨hwf, hstage, hwhere, hvalid, hhas⟩ := hs
  unfold Inv
  rw [hstatus, hcause, hwhr]
  exact ⟨hpcm hwf, hseq hstage, hwhere, hvalid, hhas⟩

theorem Inv.port {s : State} (h : Inv s) (rest : List Byte) : Inv { s with port := rest } := h

/-- A raise clears `PCM_VALID` and records a cause and the stage it was raised at (60_exceptions R286). -/
theorem Inv.takeException {s : State} (h : Inv s) {c : Cause} (hc : c ≠ .noCause) (ops : List Byte) :
    Inv (takeException c ops s) := by
  obtain ⟨hwf, hstage, -⟩ := h
  have hvalid : (s.status.raised c.exn).pcmValid = false := by cases c.exn <;> rfl
  exact ⟨takeException_pcm_wf c ops hwf, rfl, hstage, fun hp => absurd (hp.symm.trans hvalid) nofun, fun _ => hc⟩

/-- `RESET` clears every flag (47_frame_control R267). -/
theorem resetState_inv (s : State) : Inv (resetState s) :=
  ⟨resetState_pcm_wf s, rfl, rfl, nofun, fun h => h.elim nofun nofun⟩

theorem Answers.inv {i : Instr} {s t : State} (h : Answers i s t) (hs : Inv s) : Inv t := by
  obtain ⟨u, hframed, -, ⟨r, rfl⟩ | ⟨c, ops, hc, rfl⟩⟩ := h
  · exact hframed.inv hs
  · exact (hframed.inv hs).takeException hc ops

/-- Step 2 of `FRAME` leaves a fault, and takes the other two flags away. -/
theorem frameSetup_inv (r : FrameRec) {s : State} (hs : Inv s) : Inv (frameSetup r s) := by
  obtain ⟨hwf, hstage, hwhere, -, hhas⟩ := hs
  exact ⟨hwf, hstage, hwhere, nofun, fun h => hhas (h.imp_right nofun)⟩

/-- Step 11 of `FRAME` sets `PCM_VALID`, which a frame without fault or skip may. -/
theorem frameEnd_inv {s : State} (hs : Inv s) (hfault : s.status.fault = false) (hskip : s.status.skip = false) :
    Inv (frameEnd s) := by
  obtain ⟨hwf, -, hwhere, -, hhas⟩ := hs
  exact ⟨hwf, rfl, hwhere, fun _ => ⟨hfault, hskip⟩, hhas⟩

theorem frameNext_inv (r : FrameRec) {s : State} (hs : Inv s) : Inv (frameNext r s) := by
  have hsetup := frameSetup_inv r hs
  have hframe := opFrame_framed r (frameSetup r s)
  unfold frameNext
  split
  next => exact hs
  next hfault =>
    split
    next t ht =>
      rw [ht] at hframe
      obtain ⟨hstatus, -⟩ := State.control_eq hframe.1
      refine frameEnd_inv (hframe.inv hsetup) ?_ ?_ <;> rw [hstatus]
      · exact Bool.eq_false_iff.2 hfault
      · rfl
    next c t ht =>
      rw [ht] at hframe
      exact (hframe.2.inv hsetup).takeException hframe.1 _

/-! ### Every instruction, every step -/

theorem execFrame_inv {r : FrameRec} {s t : State} (hs : Inv s) (e : execFrame r s = .next t) : Inv t := by
  unfold execFrame at e
  split at e
  · exact Host.Outcome.next.inj e ▸ frameNext_inv r hs
  · cases e

theorem execPrime_inv {k : Nat} {frames : List FrameRec} {s t : State} (e : execPrime k frames s = .next t) : Inv t := by
  unfold execPrime at e
  split at e
  · exact Host.Outcome.next.inj e ▸ foldl_keeps (P := Inv) _ _ _ (resetState_inv s) fun r _ _ k => frameNext_inv r k
  · cases e

theorem exec_inv {i : Instr} {s t : State} (hs : Inv s) (e : exec i s = .next t) : Inv t := by
  cases hw : writesControl i with
  | false => exact (exec_answers i hw e).inv hs
  | true =>
    obtain rfl | rfl | ⟨r, rfl⟩ | ⟨k, fs, rfl⟩ | ⟨h, rfl⟩ := (writesControl_iff i).1 hw
    · obtain rfl := Host.Outcome.next.inj e
      obtain ⟨hwf, -, hrest⟩ := hs
      exact ⟨hwf, rfl, hrest⟩
    · exact Host.Outcome.next.inj e ▸ resetState_inv s
    · exact execFrame_inv hs e
    · exact execPrime_inv e
    · obtain rfl | rfl := execHeader_next e
      · exact hs
      · exact hs

/-- What a step that goes on has done: nothing, with an empty port, or the instruction its port begins with. -/
theorem step_next {s t : State} (e : step s = .next t) :
    t = s ∨ ∃ i rest, decode s.port = .ok (i, rest) ∧ exec i { s with port := rest } = .next t := by
  unfold step at e
  split at e
  next i rest hd =>
    split at e
    · exact .inr ⟨i, rest, hd, e⟩
    · cases e
  next => exact .inl (Host.Outcome.next.inj e).symm
  next => cases e

/-- Settles O6: an idle step changes nothing; any other runs an instruction, and every instruction keeps the invariant (`exec_inv`). -/
theorem invariantKept : Obligations.InvariantKept := fun s t hs e => by
  obtain rfl | ⟨i, rest, -, he⟩ := step_next e
  · exact hs
  · exact exec_inv (hs.port rest) he

end Sys2Proof.Machine
end

section
/-! Decoding is the inverse of encoding (30_encoding; O3). A reader reads back what an encoder writes, whatever follows (`Reads`);
readers in sequence read back encodings in sequence, so each row is the sequence of its operands' readers. -/

namespace Sys2Proof

open Machine

/-- `p` takes exactly the bytes `bs` and gives `a`, whatever bytes follow. -/
def Reads {α : Type} (p : Reader α) (bs : List Byte) (a : α) : Prop := ∀ rest, p (bs ++ rest) = .ok (a, rest)

/-! ### Readers in sequence -/

theorem Reads.ret {α : Type} (a : α) : Reads (.ret a) [] a := fun _ => rfl

theorem Reads.map {α β : Type} {p : Reader α} {bs : List Byte} {a : α} (h : Reads p bs a) (f : α → β) : Reads (p.map f) bs (f a) :=
  fun rest => Reader.map_ok (h rest)

theorem Reads.andThen {α β : Type} {p : Reader α} {k : α → Reader β} {bs cs : List Byte} {a : α} {b : β} (h : Reads p bs a)
    (hk : Reads (k a) cs b) : Reads (p.andThen k) (bs ++ cs) b := fun rest => by
  rw [List.append_assoc, Reader.andThen_ok (h _)]
  exact hk rest

/-- The last reader of a sequence, which takes no byte. -/
theorem Reads.check {α β : Type} {p : Reader α} {k : α → Reader β} {bs : List Byte} {a : α} {b : β} (h : Reads p bs a)
    (hk : k a = .ret b) : Reads (p.andThen k) bs b := fun rest => by
  rw [Reader.andThen_ok (h rest), hk]
  rfl

theorem Reads.congr {α : Type} {p : Reader α} {bs : List Byte} {a b : α} (h : Reads p bs a) (e : a = b) : Reads p bs b := e ▸ h

theorem Reads.wf {p : Reader Instr} {bs : List Byte} {i : Instr} (h : Reads p bs i) (hi : i.wf = true) : Reads (readWf p) bs i :=
  h.check (if_pos hi)

/-! ### The readers of operands -/

theorem reads_byte (b : Byte) : Reads readByte [b] b := fun _ => rfl

theorem reads_num (n : Nat) {v : Nat} (h : v < 256 ^ n) : Reads (readNum n) (numBytes n v) v := fun rest =>
  readNum_numBytes n v rest h

theorem reads_fin {n : Nat} (hn : n ≤ 256) (x : Fin n) : Reads (readFin n) [BitVec.ofNat 8 x.val] x := readFin_byte hn x

theorem reads_grCh (gr ch : Fin 2) : Reads readGrCh [grChByte gr ch] (gr, ch) := readGrCh_byte gr ch

theorem reads_flag (b : Bool) : Reads readFlag [flagByte b] b := readFlag_byte b

theorem reads_f32 (x : F32) : Reads readF32 (f32Bytes x) x := readF32_bytes x

theorem reads_bank {n : Nat} (x : Bank F32 n) : Reads (readBank n) (bankBytes x) x := readBank_bytes x

theorem reads_block {bs : List Byte} (h : bs.length < 65536) : Reads readBlock (blockBytes bs) bs := readBlock_bytes bs h

theorem reads_bytes (bs : List Byte) : Reads (readBytes bs.length) bs bs := fun rest => readBytes_append bs rest _ rfl

/-- Bits of a layout in a field of `k` bytes. -/
theorem reads_bits {α : Type} (k : Nat) {p : List Bool → Option (α × List Bool)} {bits : List Bool} {a : α}
    (hlen : bits.length ≤ 8 * k) (hp : ∀ r, p (bits ++ r) = some (a, r)) : Reads (readBits k p) (bitField k bits) a :=
  readBits_bitField k p bits a hlen hp

theorem ofNat_toNat_self {w : Nat} (v : BitVec w) : BitVec.ofNat w v.toNat = v := by
  rw [BitVec.ofNat_toNat, BitVec.setWidth_eq]

/-! ### The frame record (30_encoding R93) -/

theorem takeHdr_hdrBits (h : Hdr) (r : List Bool) :
    takeHdr (hdrBits h ++ r) = some ((h.lsf, BitVec.ofNat 2 h.sfreq.val, h.mode.toBits, h.modeExt, h.prot, h.frameSize), r) := by
  have hsf : natBits 2 h.sfreq.val = wordBits (BitVec.ofNat 2 h.sfreq.val) := by
    rw [wordBits, BitVec.toNat_ofNat, Nat.mod_eq_of_lt (by omega)]
  simp only [takeHdr, hdrBits, hsf, List.append_assoc, List.cons_append, List.nil_append, takeFlag_cons, takeWord_wordBits,
    Option.bind_eq_bind, Option.bind_some]
  rfl

theorem hdrBits_length (h : Hdr) : (hdrBits h).length = 20 := by
  simp [hdrBits, wordBits_length, natBits_length]

theorem reads_hdr (h : Hdr) : Reads readHdr (bitField 3 (hdrBits h)) h := by
  refine (reads_bits 3 (by rw [hdrBits_length]; decide) (takeHdr_hdrBits h)).check ?_
  have hsf : (BitVec.ofNat 2 h.sfreq.val).toNat = h.sfreq.val := by rw [BitVec.toNat_ofNat, Nat.mod_eq_of_lt (by omega)]
  simp only [hsf, h.sfreq.isLt, dif_pos, ChannelMode.ofBits_toBits]

theorem siSize_le (h : Hdr) : h.siSize ≤ 32 := by
  unfold Hdr.siSize
  split <;> split <;> omega

theorem mainSize_lt (h : Hdr) : h.mainSize < 4096 := by
  have := h.frameSize.isLt
  unfold Hdr.mainSize
  split <;> omega

/-- What a record of its type holds fits the length fields of the port. -/
theorem FrameRec.lengths_lt {r : FrameRec} (h : r.wf = true) : r.siImage.length < 65536 ∧ r.main.length < 65536 := by
  simp only [FrameRec.wf, Bool.and_eq_true, decide_eq_true_eq] at h
  have := siSize_le r.hdr
  have := mainSize_lt r.hdr
  omega

theorem reads_frame {r : FrameRec} (h : r.wf = true) : Reads readFrame (frameBytes r) r := by
  obtain ⟨hsi, hmain⟩ := FrameRec.lengths_lt h
  rw [frameBytes, List.append_assoc]
  exact (reads_hdr r.hdr).andThen ((reads_block hsi).andThen ((reads_block hmain).check (if_pos h)))

theorem reads_frames {rs : List FrameRec} (h : rs.all wfFrame = true) :
    Reads (readFrames rs.length) (rs.flatMap frameBytes) rs := by
  induction rs with
  | nil => exact .ret []
  | cons r rs ih =>
    obtain ⟨hr, hrs⟩ := Bool.and_eq_true_iff.1 h
    exact (reads_frame hr).andThen ((ih hrs).map fun rs => r :: rs)

/-! ### The side-information rows (30_encoding R96, R97) -/

theorem takeGroupM1_on (h : GroupHead) (c : BitVec 4) (w : SwitchOn) (f : Bool) (t : GroupTail) (r : List Bool) :
    takeGroupM1 (siGroupBits (.m1On h c w f t) ++ r) = some (.m1On h c w f t, r) := by
  simp only [takeGroupM1, siGroupBits, List.append_assoc, List.cons_append, List.nil_append, takeGroupHead_bits, takeWord_wordBits,
    takeFlag_cons, takeSwitchOn_bits, takeGroupTail_bits, Option.bind_eq_bind, Option.bind_some, if_true]
  rfl

theorem takeGroupM1_off (h : GroupHead) (c : BitVec 4) (w : SwitchOff) (f : Bool) (t : GroupTail) (r : List Bool) :
    takeGroupM1 (siGroupBits (.m1Off h c w f t) ++ r) = some (.m1Off h c w f t, r) := by
  simp only [takeGroupM1, siGroupBits, List.append_assoc, List.cons_append, List.nil_append, takeGroupHead_bits, takeWord_wordBits,
    takeFlag_cons, takeSwitchOff_bits, takeGroupTail_bits, Option.bind_eq_bind, Option.bind_some, Bool.false_eq_true, if_false]
  rfl

theorem takeGroupLsf_on (h : GroupHead) (c : BitVec 9) (w : SwitchOn) (t : GroupTail) (r : List Bool) :
    takeGroupLsf (siGroupBits (.lsfOn h c w t) ++ r) = some (.lsfOn h c w t, r) := by
  simp only [takeGroupLsf, siGroupBits, List.append_assoc, List.cons_append, List.nil_append, takeGroupHead_bits, takeWord_wordBits,
    takeFlag_cons, takeSwitchOn_bits, takeGroupTail_bits, Option.bind_eq_bind, Option.bind_some, if_true]
  rfl

theorem takeGroupLsf_off (h : GroupHead) (c : BitVec 9) (w : SwitchOff) (t : GroupTail) (r : List Bool) :
    takeGroupLsf (siGroupBits (.lsfOff h c w t) ++ r) = some (.lsfOff h c w t, r) := by
  simp only [takeGroupLsf, siGroupBits, List.append_assoc, List.cons_append, List.nil_append, takeGroupHead_bits, takeWord_wordBits,
    takeFlag_cons, takeSwitchOff_bits, takeGroupTail_bits, Option.bind_eq_bind, Option.bind_some, Bool.false_eq_true, if_false]
  rfl

theorem takeHeadM1Mono_bits (d : BitVec 9) (p : BitVec 5) (a : BitVec 4) (r : List Bool) :
    takeHeadM1Mono (siHeadBits (.m1Mono d p a) ++ r) = some (.m1Mono d p a, r) := by
  simp only [takeHeadM1Mono, siHeadBits, List.append_assoc, takeWord_wordBits, Option.bind_eq_bind, Option.bind_some]
  rfl

theorem takeHeadM1Stereo_bits (d : BitVec 9) (p : BitVec 3) (a e : BitVec 4) (r : List Bool) :
    takeHeadM1Stereo (siHeadBits (.m1Stereo d p a e) ++ r) = some (.m1Stereo d p a e, r) := by
  simp only [takeHeadM1Stereo, siHeadBits, List.append_assoc, takeWord_wordBits, Option.bind_eq_bind, Option.bind_some]
  rfl

theorem takeHeadLsfMono_bits (d : BitVec 8) (p : BitVec 1) (r : List Bool) :
    takeHeadLsfMono (siHeadBits (.lsfMono d p) ++ r) = some (.lsfMono d p, r) := by
  simp only [takeHeadLsfMono, siHeadBits, List.append_assoc, takeWord_wordBits, Option.bind_eq_bind, Option.bind_some]
  rfl

theorem takeHeadLsfStereo_bits (d : BitVec 8) (p : BitVec 2) (r : List Bool) :
    takeHeadLsfStereo (siHeadBits (.lsfStereo d p) ++ r) = some (.lsfStereo d p, r) := by
  simp only [takeHeadLsfStereo, siHeadBits, List.append_assoc, takeWord_wordBits, Option.bind_eq_bind, Option.bind_some]
  rfl

/-- The width of a group (30_encoding R96: 59 bits; R97: 63 bits). -/
def siGroupWidth : SiGroup → Nat
  | .m1On _ _ _ _ _ | .m1Off _ _ _ _ _ => 59
  | .lsfOn _ _ _ _ | .lsfOff _ _ _ _ => 63

theorem siGroupBits_length (g : SiGroup) : (siGroupBits g).length = siGroupWidth g := by
  cases g <;>
    simp [siGroupBits, siGroupWidth, groupHeadBits, switchOnBits, switchOffBits, groupTailBits, wordBits_length]

/-- The width of the frame-level fields (30_encoding R96 rows 1 to 3, R97). -/
def siHeadWidth : SiHead → Nat
  | .m1Mono _ _ _ => 18
  | .m1Stereo _ _ _ _ => 20
  | .lsfMono _ _ => 9
  | .lsfStereo _ _ => 10

theorem siHeadBits_length (d : SiHead) : (siHeadBits d).length = siHeadWidth d := by
  cases d <;> simp [siHeadBits, siHeadWidth, wordBits_length]

theorem reads_group {p : List Bool → Option (SiGroup × List Bool)} {g : SiGroup}
    (h : ∀ r, p (siGroupBits g ++ r) = some (g, r)) : Reads (readBits 8 p) (bitField 8 (siGroupBits g)) g := by
  refine reads_bits 8 ?_ h
  rw [siGroupBits_length]
  cases g <;> simp [siGroupWidth]

theorem reads_head {p : List Bool → Option (SiHead × List Bool)} {d : SiHead} (k : Nat) (hk : siHeadWidth d ≤ 8 * k)
    (h : ∀ r, p (siHeadBits d ++ r) = some (d, r)) : Reads (readBits k p) (bitField k (siHeadBits d)) d :=
  reads_bits k ((siHeadBits_length d).trans_le hk) h

/-! ### The host's header (30_encoding R94) -/

theorem takeWord_bind {w : Nat} {β : Type} (v : BitVec w) (r : List Bool) (k : BitVec w × List Bool → Option β) :
    (takeWord w (wordBits v ++ r) >>= k) = k (v, r) := by
  rw [takeWord_wordBits]
  rfl

theorem takeFlag_bind {β : Type} (b : Bool) (r : List Bool) (k : Bool × List Bool → Option β) :
    (takeFlag (b :: r) >>= k) = k (b, r) := rfl

theorem takeHeader_headerBits (h : HeaderWord) (r : List Bool) : takeHeader (headerBits h ++ r) = some (.header h, r) := by
  have hsync : List.replicate 11 true = wordBits 0x7FF#11 := by decide
  simp only [headerBits, hsync, List.append_assoc, List.cons_append, List.nil_append]
  simp only [takeHeader, ↓takeWord_bind, ↓takeFlag_bind, ChannelMode.ofBits_toBits]
  rfl

theorem headerBits_length (h : HeaderWord) : (headerBits h).length = 32 := by
  simp [headerBits, wordBits_length]

/-! ### Codewords (42_huffman R170, R178) -/

/-- No codeword but the one written begins the bits, whatever follows it (42_huffman R167). -/
theorem takeCodeword_append {α : Type} {b : Book α} (h : PrefixFree b) {w : List Bool} {a : α} (hm : (w, a) ∈ b) (r : List Bool) :
    takeCodeword b (w ++ r) = some (a, r) := by
  unfold takeCodeword
  cases hf : b.find? fun e => e.1.isPrefixOf (w ++ r) with
  | none => exact absurd (List.find?_eq_none.1 hf (w, a) hm) (by simp)
  | some e =>
    have he := List.mem_of_find?_eq_some hf
    have hp : e.1 <+: w ++ r := List.isPrefixOf_iff_prefix.1 (List.find?_some (p := fun e : List Bool × α => e.1.isPrefixOf (w ++ r)) hf)
    have : e = (w, a) := (List.prefix_or_prefix_of_prefix hp (List.prefix_append w r)).elim (h.eq he hm) fun k => (h.eq hm he k).symm
    rw [this]
    simp

theorem takeSigns_append {v n : BitVec 4} {is : List Nat} {bs : List Bool} (h : takeSigns v is bs = some (n, [])) (r : List Bool) :
    takeSigns v is (bs ++ r) = some (n, r) := by
  induction is generalizing n bs with
  | nil =>
    cases h
    rfl
  | cons i is ih =>
    unfold takeSigns at h ⊢
    split at h
    next hi =>
      rw [if_pos hi]
      cases bs with
      | nil => cases h
      | cons b bs =>
        obtain ⟨⟨m, t⟩, hm, e⟩ := Option.map_eq_some_iff.1 h
        obtain ⟨rfl, rfl⟩ := Prod.mk.inj e
        simp only [List.cons_append, ih hm, Option.map_some]
    next hi =>
      rw [if_neg hi]
      exact ih h

theorem takeSigns_quadSignBits : ∀ v n : BitVec 4, wfSigns v n = true →
    takeSigns v [3, 2, 1, 0] (quadSignBits v n) = some (n, []) := by decide +kernel

/-- What the rows of tables A and B read after their context byte: a codeword of book `q`, then its sign bits. -/
def takeQuadRow (q : Bool) (bs : List Bool) : Option (Instr × List Bool) :=
  (takeCodeword (quadBook q) bs).bind fun e => (takeSigns e.1 [3, 2, 1, 0] e.2).map fun s => (quadInstr q e.1 s.1, s.2)

theorem takeQuadRow_bits (q : Bool) {v n : BitVec 4} (h : wfSigns v n = true) (r : List Bool) :
    takeQuadRow q (quadItemBits q v n ++ r) = some (quadInstr q v n, r) := by
  rw [takeQuadRow, quadItemBits, List.append_assoc, takeCodeword_append (quadBook_prefixFree q) ((quadBook_ok q).2 v).1,
    Option.bind_some, takeSigns_append (takeSigns_quadSignBits v n h)]
  rfl

/-- What the rows of pair table 1 read after their context byte. -/
def takePairOneRow (bs : List Bool) : Option (Instr × List Bool) :=
  (takeCodeword pairBookOne bs).bind fun e => pairOneInstr e.1 e.2

theorem pairOneBits_length_le : ∀ (x y : Fin 2) (nx ny : Bool), (pairItemBits 1 x.val y.val 0 0 nx ny).length ≤ 8 := by decide

theorem quadItemBits_length_le : ∀ (q : Bool) (v n : BitVec 4), (quadItemBits q v n).length ≤ 16 := by decide +kernel

/-! ### Rows -/

/-- A first byte that begins no header chooses the reader of what follows. -/
theorem reads_row {b : Byte} {body : List Byte} {i : Instr} (hb : b ≠ 0xFF#8) (h : Reads (readOperands b) body i) :
    Reads decode (b :: body) i := fun rest => by
  rw [List.cons_append, decode_of_ne _ _ hb]
  exact h rest

theorem reads_op (o : Opid) {body : List Byte} {i : Instr} (h : Reads (readOperands (opByte o)) body i) :
    Reads decode (opByte o :: body) i := reads_row (opByte_ne o) h

/-- Eleven set bits make a first byte of ones and three ones more (30_encoding R94). -/
theorem isHeader_headerBits (h : HeaderWord) (rest : List Byte) : isHeader (packBits (headerBits h) ++ rest) = true := by
  have hsecond : ∀ a b c d e : Bool,
      ((BitVec.ofNat 8 (bitsNat [true, true, true, a, b, c, d, e])).extractLsb' 5 3 == 7#3) = true := by decide
  exact hsecond _ _ _ _ _

theorem reads_header (h : HeaderWord) : Reads decode (packBits (headerBits h)) (.header h) := fun rest => by
  have hfield : bitField 4 (headerBits h) = packBits (headerBits h) := by
    rw [bitField, headerBits_length, Nat.sub_self, List.replicate_zero, List.append_nil]
  have hreads := reads_bits 4 (headerBits_length h).le (takeHeader_headerBits h) rest
  rw [hfield] at hreads
  have hheader := isHeader_headerBits h rest
  unfold decode
  split
  next hnil => rw [hnil] at hheader; cases hheader
  next hcons => rw [if_pos (hcons ▸ hheader)]; exact hreads

theorem reads_reqL (gr ch : Fin 2) {q : BitVec 16} (sfb : Fin 22) (h : wfQuant q = true) :
    Reads decode (encode (.reqL gr ch q sfb)) (.reqL gr ch q sfb) :=
  reads_row (b := 0x40#8) (by decide) (.wf (((reads_grCh gr ch).andThen ((reads_num 2 q.isLt).andThen
    ((reads_fin (by decide) sfb).map _))).congr (by rw [ofNat_toNat_self])) h)

theorem reads_reqS (gr ch : Fin 2) {q : BitVec 16} (sfb : Fin 13) (win : Fin 3) (h : wfQuant q = true) :
    Reads decode (encode (.reqS gr ch q sfb win)) (.reqS gr ch q sfb win) :=
  reads_row (b := 0x41#8) (by decide) (.wf (((reads_grCh gr ch).andThen ((reads_num 2 q.isLt).andThen
    ((reads_fin (by decide) sfb).andThen ((reads_fin (by decide) win).map _)))).congr (by rw [ofNat_toNat_self])) h)

theorem reads_imdctL (x : Bank F32 18) {bt : BlockType} (h : (Instr.imdctL x bt).wf = true) :
    Reads decode (encode (.imdctL x bt)) (.imdctL x bt) :=
  reads_row (b := 0x44#8) (by decide) (.wf (((reads_fin (by decide) bt.toBits.toFin).andThen ((reads_bank x).map _)).congr
    (congrArg _ ((congrArg _ (ofNat_toNat_self _)).trans (BlockType.ofBits_toBits bt)))) h)

theorem reads_prime {k : Nat} {frames : List FrameRec} (h : (Instr.prime k frames).wf = true) :
    Reads decode (encode (.prime k frames)) (.prime k frames) := by
  have hwf := h
  simp only [Instr.wf, Bool.and_eq_true, decide_eq_true_eq] at h
  obtain ⟨⟨⟨-, hk⟩, hlen⟩, hall⟩ := h
  exact reads_row (b := 0x48#8) (by decide) (.wf ((reads_num 2 (by omega)).andThen ((reads_num 2 hlen).andThen
    ((reads_frames hall).map _))) hwf)

theorem reads_pairItem {t : BitVec 5} {x0 y0 : BitVec 4} {lx ly : BitVec 13} {nx ny : Bool}
    (h : (Instr.pairItem t x0 y0 lx ly nx ny).wf = true) :
    Reads decode (encode (.pairItem t x0 y0 lx ly nx ny)) (.pairItem t x0 y0 lx ly nx ny) :=
  reads_row (b := 0x58#8) (by decide) (.wf (((reads_fin (by decide) t.toFin).andThen ((reads_fin (by decide) x0.toFin).andThen
    ((reads_fin (by decide) y0.toFin).andThen ((reads_num 2 (lx.isLt.trans (by decide))).andThen
      ((reads_num 2 (ly.isLt.trans (by decide))).andThen ((reads_flag nx).andThen
        ((reads_flag ny).check (if_pos ⟨lx.isLt, ly.isLt⟩)))))))).congr
    (by simp only [BitVec.val_toFin, ofNat_toNat_self])) h)

theorem reads_quadItem (q : Bool) {v n : BitVec 4} (h : wfSigns v n = true) :
    Reads decode (encode (.quadItem q v n)) (.quadItem q v n) :=
  reads_row (b := 0x59#8) (by decide) (.wf (((reads_flag q).andThen ((reads_fin (by decide) v.toFin).andThen
    ((reads_fin (by decide) n.toFin).map _))).congr (by simp only [BitVec.val_toFin, ofNat_toNat_self])) h)

theorem readOperands_quad (q : Bool) : readOperands (if q then 0x5D#8 else 0x5C#8) = readBits 2 (takeQuadRow q) := by
  cases q <;> rfl

theorem reads_quadBytes (q : Bool) (v : BitVec 4) {n : BitVec 4} (h : wfSigns v n = true) :
    Reads decode (quadBytes q v n) (quadInstr q v n) := by
  refine reads_row (by cases q <;> decide) ?_
  rw [readOperands_quad]
  exact reads_bits 2 (quadItemBits_length_le q v n) (takeQuadRow_bits q h)

theorem readOperands_pairOne : readOperands 0x5E#8 = readBits 1 takePairOneRow := rfl

theorem reads_pairOneBytes (x y : Fin 2) {nx ny : Bool} {i : Instr}
    (h : ∀ r, takePairOneRow (pairItemBits 1 x.val y.val 0 0 nx ny ++ r) = some (i, r)) :
    Reads decode (pairOneBytes x.val y.val nx ny) i := by
  refine reads_row (by decide) ?_
  rw [readOperands_pairOne]
  exact reads_bits 1 (pairOneBits_length_le x y nx ny) h

theorem reads_huffPairBytes {t : Nat} (h : t < 32) : Reads decode (huffPairBytes t) (huffPairInstr (BitVec.ofNat 5 t)) :=
  reads_row (b := 0x5F#8) (by decide) ((reads_fin (by decide) ⟨t, h⟩).map _)

theorem reads_causeBytes {c : Cause} {i : Instr} (h : causeInstr c.code = some i) : Reads decode (causeBytes c) i :=
  reads_row (b := 0x60#8) (by decide) ((reads_byte c.code).check (by simp only [h]))

/-- Every row of the opcode table is read back from its encoding. -/
theorem reads_encode {i : Instr} (h : i.wf = true) : Reads decode (encode i) i := by
  cases i with
  | idle => exact reads_op .idle (.ret _)
  | reset => exact reads_op .reset (.ret _)
  | frame r => exact reads_op .frame ((reads_frame h).map _)
  | loadsi image => exact reads_op .loadsi ((reads_num 1 (of_decide_eq_true h)).andThen ((reads_bytes image).map _))
  | bcRead n => exact reads_op .bcRead ((reads_fin (by decide) n).map _)
  | bcPos => exact reads_op .bcPos (.ret _)
  | bcSetpos p => exact reads_op .bcSetpos ((reads_num 4 (of_decide_eq_true h)).map _)
  | rsvCheck => exact reads_op .rsvCheck (.ret _)
  | rsvRecv main => exact reads_op .rsvRecv ((reads_block (of_decide_eq_true h)).map _)
  | rsvAppend main => exact reads_op .rsvAppend ((reads_block (of_decide_eq_true h)).map _)
  | rsvSplice main => exact reads_op .rsvSplice ((reads_block (of_decide_eq_true h)).map _)
  | scfClear => exact reads_op .scfClear (.ret _)
  | scfM1 gr ch => exact reads_op .scfM1 ((reads_grCh gr ch).map _)
  | scfM2 ch => exact reads_op .scfM2 ((reads_fin (by decide) ch).map _)
  | hufGranule gr ch p => exact reads_op .hufGranule ((reads_grCh gr ch).andThen ((reads_num 4 (of_decide_eq_true h)).map _))
  | hufBig gr ch => exact reads_op .hufBig ((reads_grCh gr ch).map _)
  | hufCnt1 gr ch p => exact reads_op .hufCnt1 ((reads_grCh gr ch).andThen ((reads_num 4 (of_decide_eq_true h)).map _))
  | hufPair t => exact reads_op .hufPair (((reads_fin (by decide) t.toFin).map _).congr (congrArg _ (ofNat_toNat_self t)))
  | hufQuad q => exact reads_op .hufQuad ((reads_flag q).map _)
  | req gr ch => exact reads_op .req ((reads_grCh gr ch).map _)
  | reord gr ch => exact reads_op .reord ((reads_grCh gr ch).map _)
  | stereo gr => exact reads_op .stereo ((reads_fin (by decide) gr).map _)
  | antialias gr ch => exact reads_op .antialias ((reads_grCh gr ch).map _)
  | hyb gr ch => exact reads_op .hyb ((reads_grCh gr ch).map _)
  | finv gr ch => exact reads_op .finv ((reads_grCh gr ch).map _)
  | synth gr ch => exact reads_op .synth ((reads_grCh gr ch).map _)
  | pcmPack gr ss k ch x =>
    exact reads_op .pcmPack ((reads_grCh gr ch).andThen ((reads_fin (by decide) ss).andThen ((reads_fin (by decide) k).andThen
      ((reads_f32 x).map _))))
  | reqL gr ch q sfb => exact reads_reqL gr ch sfb h
  | reqS gr ch q sfb win => exact reads_reqS gr ch sfb win h
  | stMs a b => exact reads_row (b := 0x42#8) (by decide) ((reads_f32 a).andThen ((reads_f32 b).map _))
  | stIs m p => exact reads_row (b := 0x43#8) (by decide) ((reads_f32 m).andThen ((reads_fin (by decide) p).map _))
  | imdctL x bt => exact reads_imdctL x h
  | imdctS x => exact reads_row (b := 0x45#8) (by decide) ((reads_bank x).map _)
  | ola gr ch sb raw =>
    exact reads_row (b := 0x46#8) (by decide) ((reads_grCh gr ch).andThen ((reads_fin (by decide) sb).andThen ((reads_bank raw).map _)))
  | pcmConvert x => exact reads_row (b := 0x47#8) (by decide) ((reads_f32 x).map _)
  | prime k frames => exact reads_prime h
  | getBits n => exact reads_row (b := 0x49#8) (by decide) ((reads_fin (by decide) n).map _)
  | siGroupM1Ws1 gr ch g c w f t =>
    exact reads_row (b := 0x50#8) (by decide) ((reads_grCh gr ch).andThen ((reads_group (takeGroupM1_on g c w f t)).map _))
  | siGroupM1Ws0 gr ch g c w f t =>
    exact reads_row (b := 0x50#8) (by decide) ((reads_grCh gr ch).andThen ((reads_group (takeGroupM1_off g c w f t)).map _))
  | siGroupLsfWs1 ch g c w t =>
    exact reads_row (b := 0x51#8) (by decide) ((reads_fin (by decide) ch).andThen ((reads_group (takeGroupLsf_on g c w t)).map _))
  | siGroupLsfWs0 ch g c w t =>
    exact reads_row (b := 0x51#8) (by decide) ((reads_fin (by decide) ch).andThen ((reads_group (takeGroupLsf_off g c w t)).map _))
  | siHeadM1Mono d p a =>
    exact reads_row (b := 0x52#8) (by decide) ((reads_head 3 (by simp [siHeadWidth]) (takeHeadM1Mono_bits d p a)).map _)
  | siHeadM1Stereo d p a e =>
    exact reads_row (b := 0x53#8) (by decide) ((reads_head 3 (by simp [siHeadWidth]) (takeHeadM1Stereo_bits d p a e)).map _)
  | siHeadLsfMono d p =>
    exact reads_row (b := 0x54#8) (by decide) ((reads_head 2 (by simp [siHeadWidth]) (takeHeadLsfMono_bits d p)).map _)
  | siHeadLsfStereo d p =>
    exact reads_row (b := 0x55#8) (by decide) ((reads_head 2 (by simp [siHeadWidth]) (takeHeadLsfStereo_bits d p)).map _)
  | header w => exact reads_header w
  | pairItem t x0 y0 lx ly nx ny => exact reads_pairItem h
  | quadItem q v n => exact reads_quadItem q h
  | scfFieldM1 gr ch second => exact reads_row (b := 0x5A#8) (by decide) ((reads_grCh gr ch).andThen ((reads_flag second).map _))
  | scfFieldM2 ch part => exact reads_row (b := 0x5B#8) (by decide) ((reads_fin (by decide) ch).andThen ((reads_fin (by decide) part).map _))
  | quadA0000 => exact reads_quadBytes false 0b0000#4 (by decide)
  | quadA0001 n => exact reads_quadBytes false 0b0001#4 h
  | quadA0010 n => exact reads_quadBytes false 0b0010#4 h
  | quadA0011 n => exact reads_quadBytes false 0b0011#4 h
  | quadA0100 n => exact reads_quadBytes false 0b0100#4 h
  | quadA0101 n => exact reads_quadBytes false 0b0101#4 h
  | quadA0110 n => exact reads_quadBytes false 0b0110#4 h
  | quadA0111 n => exact reads_quadBytes false 0b0111#4 h
  | quadA1000 n => exact reads_quadBytes false 0b1000#4 h
  | quadA1001 n => exact reads_quadBytes false 0b1001#4 h
  | quadA1010 n => exact reads_quadBytes false 0b1010#4 h
  | quadA1011 n => exact reads_quadBytes false 0b1011#4 h
  | quadA1100 n => exact reads_quadBytes false 0b1100#4 h
  | quadA1101 n => exact reads_quadBytes false 0b1101#4 h
  | quadA1110 n => exact reads_quadBytes false 0b1110#4 h
  | quadA1111 n => exact reads_quadBytes false 0b1111#4 h
  | quadB0000 => exact reads_quadBytes true 0b0000#4 (by decide)
  | quadB0001 n => exact reads_quadBytes true 0b0001#4 h
  | quadB0010 n => exact reads_quadBytes true 0b0010#4 h
  | quadB0011 n => exact reads_quadBytes true 0b0011#4 h
  | quadB0100 n => exact reads_quadBytes true 0b0100#4 h
  | quadB0101 n => exact reads_quadBytes true 0b0101#4 h
  | quadB0110 n => exact reads_quadBytes true 0b0110#4 h
  | quadB0111 n => exact reads_quadBytes true 0b0111#4 h
  | quadB1000 n => exact reads_quadBytes true 0b1000#4 h
  | quadB1001 n => exact reads_quadBytes true 0b1001#4 h
  | quadB1010 n => exact reads_quadBytes true 0b1010#4 h
  | quadB1011 n => exact reads_quadBytes true 0b1011#4 h
  | quadB1100 n => exact reads_quadBytes true 0b1100#4 h
  | quadB1101 n => exact reads_quadBytes true 0b1101#4 h
  | quadB1110 n => exact reads_quadBytes true 0b1110#4 h
  | quadB1111 n => exact reads_quadBytes true 0b1111#4 h
  | pairOne00 => exact reads_pairOneBytes 0 0 fun _ => rfl
  | pairOne01 ny => exact reads_pairOneBytes 0 1 fun _ => rfl
  | pairOne10 nx => exact reads_pairOneBytes 1 0 fun _ => rfl
  | pairOne11 nx ny => exact reads_pairOneBytes 1 1 fun _ => rfl
  | huffPair0 => exact reads_huffPairBytes (t := 0) (by decide)
  | huffPair1 => exact reads_huffPairBytes (t := 1) (by decide)
  | huffPair2 => exact reads_huffPairBytes (t := 2) (by decide)
  | huffPair3 => exact reads_huffPairBytes (t := 3) (by decide)
  | huffPair4 => exact reads_huffPairBytes (t := 4) (by decide)
  | huffPair5 => exact reads_huffPairBytes (t := 5) (by decide)
  | huffPair6 => exact reads_huffPairBytes (t := 6) (by decide)
  | huffPair7 => exact reads_huffPairBytes (t := 7) (by decide)
  | huffPair8 => exact reads_huffPairBytes (t := 8) (by decide)
  | huffPair9 => exact reads_huffPairBytes (t := 9) (by decide)
  | huffPair10 => exact reads_huffPairBytes (t := 10) (by decide)
  | huffPair11 => exact reads_huffPairBytes (t := 11) (by decide)
  | huffPair12 => exact reads_huffPairBytes (t := 12) (by decide)
  | huffPair13 => exact reads_huffPairBytes (t := 13) (by decide)
  | huffPair14 => exact reads_huffPairBytes (t := 14) (by decide)
  | huffPair15 => exact reads_huffPairBytes (t := 15) (by decide)
  | huffPair16 => exact reads_huffPairBytes (t := 16) (by decide)
  | huffPair17 => exact reads_huffPairBytes (t := 17) (by decide)
  | huffPair18 => exact reads_huffPairBytes (t := 18) (by decide)
  | huffPair19 => exact reads_huffPairBytes (t := 19) (by decide)
  | huffPair20 => exact reads_huffPairBytes (t := 20) (by decide)
  | huffPair21 => exact reads_huffPairBytes (t := 21) (by decide)
  | huffPair22 => exact reads_huffPairBytes (t := 22) (by decide)
  | huffPair23 => exact reads_huffPairBytes (t := 23) (by decide)
  | huffPair24 => exact reads_huffPairBytes (t := 24) (by decide)
  | huffPair25 => exact reads_huffPairBytes (t := 25) (by decide)
  | huffPair26 => exact reads_huffPairBytes (t := 26) (by decide)
  | huffPair27 => exact reads_huffPairBytes (t := 27) (by decide)
  | huffPair28 => exact reads_huffPairBytes (t := 28) (by decide)
  | huffPair29 => exact reads_huffPairBytes (t := 29) (by decide)
  | huffPair30 => exact reads_huffPairBytes (t := 30) (by decide)
  | huffPair31 => exact reads_huffPairBytes (t := 31) (by decide)
  | causeFrameSize => exact reads_causeBytes (c := .frameSize) rfl
  | causeMainSize => exact reads_causeBytes (c := .mainSize) rfl
  | causeBitsOverrun => exact reads_causeBytes (c := .bitsOverrun) rfl
  | causeScfCount => exact reads_causeBytes (c := .scfCount) rfl
  | causeHuffTableReserved => exact reads_causeBytes (c := .huffTableReserved) rfl
  | causeHuffIllegal => exact reads_causeBytes (c := .huffIllegal) rfl
  | causeLineRange => exact reads_causeBytes (c := .lineRange) rfl
  | causeRegionRange => exact reads_causeBytes (c := .regionRange) rfl
  | causeStereoBlockMismatch => exact reads_causeBytes (c := .stereoBlockMismatch) rfl
  | causeSiTruncated => exact reads_causeBytes (c := .siTruncated) rfl
  | causeMainTruncated => exact reads_causeBytes (c := .mainTruncated) rfl
  | causeRsvInsufficient => exact reads_causeBytes (c := .rsvInsufficient) rfl

/-- Settles O3: each row is read back from its encoding whatever follows (`reads_encode`). -/
theorem decodeEncode : Obligations.DecodeEncode := fun _ rest h => reads_encode h rest

end Sys2Proof
end

section
/-! Fixed words of the encoding, the OPIDs that are assigned and those that are not (30_encoding R92; O2, O4). -/

namespace Sys2Proof

open Machine

theorem decode_of_encode {i : Instr} {bs : List Byte} (h : i.wf = true) (he : encode i = bs) : decode bs = .ok (i, []) := by
  rw [← List.append_nil bs, ← he]
  exact reads_encode h []

/-- Settles O2: each word is the encoding of its instruction (`decode_of_encode`). -/
theorem decodeSpecWords : Obligations.DecodeSpecWords :=
  ⟨decode_of_encode (by decide) (by decide), decode_of_encode (by decide) (by decide), decode_of_encode (by decide) (by decide),
    decode_of_encode (by decide) (by decide), decode_of_encode (by decide) (by decide), decode_of_encode (by decide) (by decide),
    decode_of_encode (by decide) (by decide), decode_of_encode (by decide) (by decide)⟩

/-! ### Readers that never refuse a code as unassigned -/

/-- The reader may refuse bytes, but never because a code is unassigned. -/
def NeverUnassigned {α : Type} (p : Reader α) : Prop := ∀ bs c, p bs ≠ .error (.unassigned c)

theorem NeverUnassigned.ret {α : Type} (a : α) : NeverUnassigned (.ret a) := fun _ _ h => nomatch h

theorem NeverUnassigned.fail {α : Type} {e : DecodeError} (h : ∀ c, e ≠ .unassigned c) : NeverUnassigned (.fail e : Reader α) :=
  fun _ c k => h c (Except.error.inj k)

theorem NeverUnassigned.ite {α : Type} {c : Prop} [Decidable c] {p q : Reader α} (hp : NeverUnassigned p) (hq : NeverUnassigned q) :
    NeverUnassigned (if c then p else q) := by
  split
  · exact hp
  · exact hq

theorem NeverUnassigned.andThen {α β : Type} {p : Reader α} {k : α → Reader β} (hp : NeverUnassigned p)
    (hk : ∀ a, NeverUnassigned (k a)) : NeverUnassigned (p.andThen k) := fun bs c h => by
  unfold Reader.andThen at h
  split at h
  next a rest _ => exact hk a rest c h
  next e he => exact hp bs c (he.trans (congrArg _ (Except.error.inj h)))

theorem NeverUnassigned.map {α β : Type} {p : Reader α} (hp : NeverUnassigned p) (f : α → β) : NeverUnassigned (p.map f) :=
  hp.andThen fun a => .ret (f a)

theorem readByte_neverUnassigned : NeverUnassigned readByte := fun bs _ h => by
  cases bs <;> cases h

theorem readNum_neverUnassigned (n : Nat) : NeverUnassigned (readNum n) := by
  induction n with
  | zero => exact .ret 0
  | succ n ih => exact readByte_neverUnassigned.andThen fun b => ih.map fun v => b.toNat * 256 ^ n + v

theorem readBytes_neverUnassigned (k : Nat) : NeverUnassigned (readBytes k) := fun bs _ h => by
  unfold readBytes at h
  split at h <;> cases h

theorem readFin_neverUnassigned (n : Nat) : NeverUnassigned (readFin n) := readByte_neverUnassigned.andThen fun b => by
  split
  · exact .ret _
  · exact .fail nofun

theorem readGrCh_neverUnassigned : NeverUnassigned readGrCh :=
  readByte_neverUnassigned.andThen fun _ => .ite (.ret _) (.fail nofun)

theorem readF32_neverUnassigned : NeverUnassigned readF32 := (readNum_neverUnassigned 4).map _

theorem readBlock_neverUnassigned : NeverUnassigned readBlock := (readNum_neverUnassigned 2).andThen readBytes_neverUnassigned

theorem readBits_neverUnassigned {α : Type} (k : Nat) (p : List Bool → Option (α × List Bool)) : NeverUnassigned (readBits k p) :=
  (readBytes_neverUnassigned k).andThen fun bs => by
    split
    · exact .ite (.ret _) (.fail nofun)
    · exact .fail nofun

theorem readHdr_neverUnassigned : NeverUnassigned readHdr := (readBits_neverUnassigned 3 takeHdr).andThen fun _ => by
  dsimp only
  split
  · exact .ret _
  · exact .fail nofun

theorem readFrame_neverUnassigned : NeverUnassigned readFrame :=
  readHdr_neverUnassigned.andThen fun _ => readBlock_neverUnassigned.andThen fun _ => readBlock_neverUnassigned.andThen fun _ =>
    .ite (.ret _) (.fail nofun)

/-- No operation's operands are refused as an unassigned code. -/
theorem readOperands_neverUnassigned (o : Opid) : NeverUnassigned (readOperands (opByte o)) := by
  cases o with
  | idle | reset | bcPos | rsvCheck | scfClear => exact .ret _
  | frame => exact readFrame_neverUnassigned.map _
  | loadsi => exact (readNum_neverUnassigned 1).andThen fun n => (readBytes_neverUnassigned n).map _
  | bcRead | scfM2 | hufPair | stereo => exact (readFin_neverUnassigned _).map _
  | bcSetpos => exact (readNum_neverUnassigned 4).map _
  | rsvRecv | rsvAppend | rsvSplice => exact readBlock_neverUnassigned.map _
  | scfM1 | hufBig | req | reord | antialias | hyb | finv | synth => exact readGrCh_neverUnassigned.map _
  | hufGranule | hufCnt1 => exact readGrCh_neverUnassigned.andThen fun _ => (readNum_neverUnassigned 4).map _
  | hufQuad => exact ((readFin_neverUnassigned 2).map _).map _
  | pcmPack =>
    exact readGrCh_neverUnassigned.andThen fun _ => (readFin_neverUnassigned 18).andThen fun _ =>
      (readFin_neverUnassigned 32).andThen fun _ => readF32_neverUnassigned.map _

/-! ### The codes R92 leaves unassigned -/

/-- The OPIDs that 30_encoding R92 leaves unassigned. -/
def UnassignedCode (n : Nat) : Prop :=
  n = 0x07 ∨ (0x0C ≤ n ∧ n ≤ 0x0F) ∨ (0x13 ≤ n ∧ n ≤ 0x17) ∨ (0x1D ≤ n ∧ n ≤ 0x1F) ∨ 0x28 ≤ n

/-- Every arm of the decoder's table is an assigned OPID or a context byte of 64 or above; an unassigned OPID meets none. -/
theorem readOperands_unassigned {c : Byte} (hc : c.toNat < 64) (hu : UnassignedCode c.toNat) :
    readOperands c = .fail (.unassigned c) := by
  unfold UnassignedCode at hu
  unfold readOperands
  split
  all_goals try omega
  rfl

/-- Settles O4: an unassigned OPID meets no arm of the table (`readOperands_unassigned`); the readers of the operands of an assigned one
refuse nothing as unassigned. -/
theorem unassignedOpids : Obligations.UnassignedOpids := by
  refine ⟨fun c hc rest hu => ?_, fun o rest c => ?_⟩
  · rw [decode_of_ne c rest (by rintro rfl; exact absurd hc (by decide)), readOperands_unassigned hc hu]
    rfl
  · rw [decode_of_ne _ rest (opByte_ne o)]
    exact readOperands_neverUnassigned o rest c

end Sys2Proof
end

section
/-! The side information and the host's header (30_encoding R94 to R98): `LOADSI` (O15 to O17), the rows of the image (O18), `HEADER`
(O19). -/

namespace Sys2Proof.Machine

open Sys2Proof.Claims

/-! ### A group and the frame-level fields as writes -/

/-- The registers a group gives are those the statements write out (30_encoding R96 to R98). -/
theorem granOf_eq (old : Gran) (g : SiGroup) : granOf old g = groupRegs old.count1 g := by cases g <;> rfl

/-- `SI.*[gr][ch]` of a side information. -/
def SideInfo.granAt (x : SideInfo) (gr ch : Fin 2) : Gran := (x.gran.get gr).get ch

theorem State.gran_eq (s : State) (gr ch : Fin 2) : s.gran gr ch = s.si.granAt gr ch := rfl

theorem SideInfo.writeGroup_granAt (x : SideInfo) (gr ch gr' ch' : Fin 2) (g : SiGroup) :
    (x.writeGroup gr ch g).granAt gr' ch' = if gr' = gr ∧ ch' = ch then groupRegs (x.granAt gr ch).count1 g else x.granAt gr' ch' := by
  rw [← granOf_eq]
  exact Two.get_set_get ..

@[simp] theorem SideInfo.writeHead_granAt (x : SideInfo) (d : SiHead) (gr ch : Fin 2) : (x.writeHead d).granAt gr ch = x.granAt gr ch := by
  cases d <;> rfl

theorem groupRegs_count1 (c1 : BitVec 10) (g : SiGroup) : (groupRegs c1 g).count1 = c1 := by cases g <;> rfl

/-- No group carries `COUNT1` (10_state R34). -/
theorem SideInfo.writeGroup_count1 (x : SideInfo) (gr ch gr' ch' : Fin 2) (g : SiGroup) :
    ((x.writeGroup gr ch g).granAt gr' ch').count1 = (x.granAt gr' ch').count1 := by
  rw [SideInfo.writeGroup_granAt]
  split
  next h => rw [groupRegs_count1, h.1, h.2]
  next => rfl

/-- A group's row: its own registers, and those of no other granule or channel. -/
theorem gran_writeGroup (s : State) (gr ch : Fin 2) (g : SiGroup) :
    ({ s with si := s.si.writeGroup gr ch g } : State).gran gr ch = groupRegs (s.gran gr ch).count1 g ∧
    OtherGrans gr ch s { s with si := s.si.writeGroup gr ch g } := by
  refine ⟨?_, fun gr' ch' h => ?_⟩
  · rw [State.gran_eq, SideInfo.writeGroup_granAt, if_pos ⟨rfl, rfl⟩]
    rfl
  · rw [State.gran_eq, SideInfo.writeGroup_granAt, if_neg h]
    rfl

/-- Settles O18: a group's row is one `writeGroup` (`gran_writeGroup`), a head's row one `writeHead`. -/
theorem sideInfoRows : Obligations.SideInfoRows := fun s gr ch _ _ _ _ =>
  ⟨fun _ _ => ⟨⟨_, exec_siGroupM1Ws1, rfl, gran_writeGroup s gr ch _⟩, ⟨_, exec_siGroupM1Ws0, rfl, gran_writeGroup s gr ch _⟩⟩,
    fun _ => ⟨⟨_, exec_siGroupLsfWs1, rfl, gran_writeGroup s 0 ch _⟩, ⟨_, exec_siGroupLsfWs0, rfl, gran_writeGroup s 0 ch _⟩⟩,
    fun _ _ _ _ _ => ⟨exec_siHeadM1Mono, exec_siHeadM1Stereo⟩,
    fun _ _ _ => ⟨exec_siHeadLsfMono, exec_siHeadLsfStereo⟩⟩

/-! ### `LOADSI` -/

theorem loadGroups_count1 (h : Hdr) (order : List (Fin 2 × Fin 2)) (bs : List Bool) (x : SideInfo) (gr ch : Fin 2) :
    ((loadGroups h order bs x).granAt gr ch).count1 = (x.granAt gr ch).count1 := by
  induction order generalizing bs x with
  | nil => rfl
  | cons g order ih =>
    unfold loadGroups
    split
    · rw [ih, SideInfo.writeGroup_count1]
    · rfl

theorem unpackSi_count1 (h : Hdr) (image : List Byte) (x : SideInfo) (gr ch : Fin 2) :
    ((unpackSi h image x).granAt gr ch).count1 = (x.granAt gr ch).count1 := by
  unfold unpackSi
  split
  · rw [loadGroups_count1, SideInfo.writeHead_granAt]
  · rfl

/-- What `LOADSI` leaves where it completes. -/
def loaded (image : List Byte) (s : State) : State := { s with seq := ⟨.loadsi, 0, 0⟩, si := unpackSi s.hdr image s.si }

theorem opLoadsi_eq (image : List Byte) (s : State) : opLoadsi image s =
    if 2000 < s.hdr.frameSize.toNat then .raised .frameSize (s.stage .loadsi 0 0)
    else if image.length < s.hdr.siSize then .raised .siTruncated (s.stage .loadsi 0 0)
    else .ok () (loaded image s) := rfl

theorem exec_loadsi_loaded {image : List Byte} {s : State} (hf : s.hdr.frameSize.toNat ≤ 2000) (hl : s.hdr.siSize ≤ image.length) :
    exec (.loadsi image) s = .next (loaded image s) := by
  rw [exec_loadsi, execLoadsi, opLoadsi_eq, if_neg (Nat.not_lt.2 hf), if_neg (Nat.not_lt.2 hl), settle_ok]

theorem exec_loadsi_frameSize (image : List Byte) {s : State} (hf : 2000 < s.hdr.frameSize.toNat) :
    exec (.loadsi image) s = .next (takeException .frameSize image (s.stage .loadsi 0 0)) := by
  rw [exec_loadsi, execLoadsi, opLoadsi_eq, if_pos hf, settle_raised]

theorem exec_loadsi_siTruncated {image : List Byte} {s : State} (hf : s.hdr.frameSize.toNat ≤ 2000)
    (hl : image.length < s.hdr.siSize) :
    exec (.loadsi image) s = .next (takeException .siTruncated image (s.stage .loadsi 0 0)) := by
  rw [exec_loadsi, execLoadsi, opLoadsi_eq, if_neg (Nat.not_lt.2 hf), if_pos hl, settle_raised]

/-- What a fault leaves specified (60_exceptions R286, R293(b)); `RSV_INSUFFICIENT` alone is no fault. -/
theorem takeException_faulted {c : Cause} (hc : c ≠ .rsvInsufficient) (ops : List Byte) (s : State) :
    Faulted c s.seq (takeException c ops s) := by
  have hkind : s.status.raised c.exn = ⟨true, false, false⟩ ∧
      Cause.outcome c = if c.code.toNat < 16 then .formatError c else .unexpectedEos c := by
    cases c with
    | rsvInsufficient => exact absurd rfl hc
    | _ => exact ⟨rfl, rfl⟩
  exact ⟨rfl, rfl, rfl, hkind.1, hkind.2⟩

/-- Settles O15: the checks in the order of 30_encoding R96; where both pass, `unpackSi` writes `SI.*` alone and keeps every `COUNT1`
(`unpackSi_count1`). -/
theorem loadsiChecks : Obligations.LoadsiChecks := fun image s =>
  ⟨fun hf => ⟨_, exec_loadsi_frameSize image hf, takeException_faulted (by decide) image (s.stage .loadsi 0 0)⟩,
    fun hf hl => ⟨_, exec_loadsi_siTruncated hf hl, takeException_faulted (by decide) image (s.stage .loadsi 0 0)⟩,
    fun hf hl => ⟨_, exec_loadsi_loaded hf hl, rfl, fun gr ch => unpackSi_count1 s.hdr image s.si gr ch⟩⟩

/-! ### An image made of fields -/

/-- Groups with their granules and channels, one after another. -/
abbrev Groups := List ((Fin 2 × Fin 2) × SiGroup)

def Groups.bits (gs : Groups) : List Bool := gs.flatMap fun e => siGroupBits e.2

def SideInfo.writeGroups (gs : Groups) (x : SideInfo) : SideInfo := gs.foldl (fun x e => x.writeGroup e.1.1 e.1.2 e.2) x

/-- A group of the layout `HDR` asks for is read back (30_encoding R96, R97). -/
theorem takeGroup_bits {h : Hdr} {g : SiGroup} (hg : isM1 g = !h.lsf) (r : List Bool) :
    takeGroup h (siGroupBits g ++ r) = some (g, r) := by
  unfold takeGroup
  cases g with
  | m1On _ c w f t => rw [if_neg (by simpa [isM1] using hg.symm)]; exact takeGroupM1_on _ c w f t r
  | m1Off _ c w f t => rw [if_neg (by simpa [isM1] using hg.symm)]; exact takeGroupM1_off _ c w f t r
  | lsfOn _ c w t => rw [if_pos (by simpa [isM1] using hg.symm)]; exact takeGroupLsf_on _ c w t r
  | lsfOff _ c w t => rw [if_pos (by simpa [isM1] using hg.symm)]; exact takeGroupLsf_off _ c w t r

theorem loadGroups_bits {h : Hdr} {gs : Groups} (hg : ∀ e ∈ gs, isM1 e.2 = !h.lsf) (r : List Bool) (x : SideInfo) :
    loadGroups h (gs.map (·.1)) (gs.bits ++ r) x = x.writeGroups gs := by
  induction gs generalizing x with
  | nil => rfl
  | cons e gs ih =>
    have hbits : Groups.bits (e :: gs) ++ r = siGroupBits e.2 ++ (Groups.bits gs ++ r) := by
      simp only [Groups.bits, List.flatMap_cons, List.append_assoc]
    rw [hbits, List.map_cons, loadGroups, takeGroup_bits (hg e (by simp))]
    exact ih (fun f hf => hg f (by simp [hf])) _

/-- An image of a head and of groups, filled up to whole bytes. -/
theorem unpackSi_packBits {h : Hdr} {d : SiHead} {gs : Groups} (hd : ∀ r, takeHead h (siHeadBits d ++ r) = some (d, r))
    (hg : ∀ e ∈ gs, isM1 e.2 = !h.lsf) (ho : groupOrder h = gs.map (·.1)) (x : SideInfo) :
    unpackSi h (packBits (siHeadBits d ++ gs.bits)) x = (x.writeHead d).writeGroups gs := by
  rw [unpackSi, (packBits_spec _).1, List.append_assoc, hd, ho]
  exact loadGroups_bits hg _ _

/-- The width of a group by its layout. -/
theorem siGroupWidth_eq (g : SiGroup) : siGroupWidth g = if isM1 g then 59 else 63 := by cases g <;> rfl

theorem Groups.bits_length {gs : Groups} {lsf : Bool} (hg : ∀ e ∈ gs, isM1 e.2 = !lsf) :
    gs.bits.length = gs.length * if lsf then 63 else 59 := by
  induction gs with
  | nil => simp [Groups.bits]
  | cons e gs ih =>
    have hw : (siGroupBits e.2).length = if lsf then 63 else 59 := by
      rw [siGroupBits_length, siGroupWidth_eq, hg e (by simp)]
      cases lsf <;> rfl
    rw [Groups.bits, List.flatMap_cons, List.length_append, hw, List.length_cons, Nat.succ_mul, Nat.add_comm]
    exact congrArg (· + _) (ih fun f hf => hg f (by simp [hf]))

theorem SideInfo.writeGroups_head (gs : Groups) (x : SideInfo) : (x.writeGroups gs).mainDataBegin = x.mainDataBegin ∧
    (x.writeGroups gs).priv = x.priv ∧ (x.writeGroups gs).scfsi = x.scfsi := by
  induction gs generalizing x with
  | nil => exact ⟨rfl, rfl, rfl⟩
  | cons e gs ih => exact ih (x.writeGroup e.1.1 e.1.2 e.2)

theorem SideInfo.writeGroups_granAt_other {gs : Groups} {gr ch : Fin 2} (h : (gr, ch) ∉ gs.map (·.1)) (x : SideInfo) :
    (x.writeGroups gs).granAt gr ch = x.granAt gr ch := by
  induction gs generalizing x with
  | nil => rfl
  | cons e gs ih =>
    obtain ⟨hne, hrest⟩ := not_or.1 fun k => h (List.mem_cons.2 k)
    refine (ih hrest _).trans ?_
    rw [SideInfo.writeGroup_granAt, if_neg fun k => hne (Prod.ext k.1 k.2)]

/-- Groups of different granules or channels all stand at the end. -/
theorem SideInfo.writeGroups_granAt {gs : Groups} (hnd : (gs.map (·.1)).Nodup) {e : (Fin 2 × Fin 2) × SiGroup} (he : e ∈ gs)
    (x : SideInfo) : (x.writeGroups gs).granAt e.1.1 e.1.2 = groupRegs (x.granAt e.1.1 e.1.2).count1 e.2 := by
  induction gs generalizing x with
  | nil => exact absurd he (by simp)
  | cons f gs ih =>
    obtain ⟨hf, hrest⟩ := List.nodup_cons.1 (List.map_cons ▸ hnd)
    rcases List.mem_cons.1 he with rfl | he
    · refine (SideInfo.writeGroups_granAt_other hf _).trans ?_
      rw [SideInfo.writeGroup_granAt, if_pos ⟨rfl, rfl⟩]
    · refine (ih hrest he _).trans ?_
      rw [SideInfo.writeGroup_count1]

/-- The granules and channels of a layout, by `LSF` and `NCH` (10_state R31). -/
theorem groupOrder_eq (h : Hdr) : groupOrder h =
    (if h.lsf then [0] else [0, 1] : List (Fin 2)).flatMap fun gr =>
      (if h.nch = 1 then [0] else [0, 1] : List (Fin 2)).map fun ch => (gr, ch) := by
  unfold groupOrder Hdr.granules Hdr.ngr
  cases h.lsf <;> rfl

theorem groupOrder_nodup (h : Hdr) : (groupOrder h).Nodup := by
  rw [groupOrder_eq]
  split <;> split <;> decide

/-- `LOADSI` of an image made of a head and of groups in the order of 30_encoding R96 and R97. -/
theorem exec_loadsi_fields {s : State} {bits : List Bool} (d : SiHead) (gs : Groups) (hf : s.hdr.frameSize.toNat ≤ 2000)
    (hbits : bits = siHeadBits d ++ gs.bits) (hd : ∀ r, takeHead s.hdr (siHeadBits d ++ r) = some (d, r))
    (hg : ∀ e ∈ gs, isM1 e.2 = !s.hdr.lsf) (ho : groupOrder s.hdr = gs.map (·.1))
    (hsize : s.hdr.siSize ≤ (siHeadWidth d + gs.length * (if s.hdr.lsf then 63 else 59) + 7) / 8) :
    ∃ t, exec (.loadsi (packBits bits)) s = .next t ∧ t = { s with seq := ⟨.loadsi, 0, 0⟩, si := t.si } ∧
      t.si.mainDataBegin = (s.si.writeHead d).mainDataBegin ∧ t.si.priv = (s.si.writeHead d).priv ∧
      t.si.scfsi = (s.si.writeHead d).scfsi ∧
      ∀ e ∈ gs, t.gran e.1.1 e.1.2 = groupRegs (s.gran e.1.1 e.1.2).count1 e.2 := by
  have hlen : s.hdr.siSize ≤ (packBits bits).length := by
    rwa [hbits, (packBits_spec _).2, List.length_append, siHeadBits_length, Groups.bits_length hg]
  have hsi : (loaded (packBits bits) s).si = (s.si.writeHead d).writeGroups gs := by
    rw [hbits]
    exact unpackSi_packBits hd hg ho s.si
  obtain ⟨hmdb, hpriv, hscfsi⟩ := SideInfo.writeGroups_head gs (s.si.writeHead d)
  refine ⟨_, exec_loadsi_loaded hf hlen, rfl, ?_, ?_, ?_, fun e he => ?_⟩
  · rw [hsi, hmdb]
  · rw [hsi, hpriv]
  · rw [hsi, hscfsi]
  · rw [State.gran_eq, hsi, SideInfo.writeGroups_granAt (ho ▸ groupOrder_nodup s.hdr) he, SideInfo.writeHead_granAt]
    rfl

/-- Settles O16: the image is a head and two or four groups of the MPEG-1 layout (`exec_loadsi_fields`). -/
theorem loadsiMpeg1 : Obligations.LoadsiMpeg1 := by
  intro s mdb f0 f1 a b c d hf hlsf ha hb hc hd
  refine ⟨fun priv hm => ?_, fun priv hm => ?_⟩
  · have hnch : s.hdr.nch = 1 := if_pos hm
    obtain ⟨t, he, ht, hmdb, hpriv, hscfsi, hgran⟩ := exec_loadsi_fields (s := s) (.m1Mono mdb priv f0) [((0, 0), a), ((1, 0), b)]
      hf rfl (by simpa [takeHead, hlsf, hnch] using takeHeadM1Mono_bits mdb priv f0) (by simp [ha, hb, hlsf])
      (by simp [groupOrder_eq, hlsf, hnch]) (by simp [Hdr.siSize, hlsf, hnch, siHeadWidth])
    refine ⟨t, ?_, ht, hmdb, hpriv, congrArg (·.get 0) hscfsi, hgran ((0, 0), a) (by simp), hgran ((1, 0), b) (by simp)⟩
    simpa [siHeadBits, Groups.bits] using he
  · have hnch : s.hdr.nch = 2 := if_neg hm
    obtain ⟨t, he, ht, hmdb, hpriv, hscfsi, hgran⟩ := exec_loadsi_fields (s := s) (.m1Stereo mdb priv f0 f1)
      [((0, 0), a), ((0, 1), b), ((1, 0), c), ((1, 1), d)]
      hf rfl (by simpa [takeHead, hlsf, hnch] using takeHeadM1Stereo_bits mdb priv f0 f1) (by simp [ha, hb, hc, hd, hlsf])
      (by simp [groupOrder_eq, hlsf, hnch]) (by simp [Hdr.siSize, hlsf, hnch, siHeadWidth])
    refine ⟨t, ?_, ht, hmdb, hpriv, congrArg (·.get 0) hscfsi, congrArg (·.get 1) hscfsi, hgran ((0, 0), a) (by simp),
      hgran ((0, 1), b) (by simp), hgran ((1, 0), c) (by simp), hgran ((1, 1), d) (by simp)⟩
    simpa [siHeadBits, Groups.bits] using he

/-- Settles O17: the image is a head and one or two groups of the LSF layout (`exec_loadsi_fields`). -/
theorem loadsiLsf : Obligations.LoadsiLsf := by
  intro s mdb a b hf hlsf ha hb
  refine ⟨fun priv hm => ?_, fun priv hm => ?_⟩
  · have hnch : s.hdr.nch = 1 := if_pos hm
    obtain ⟨t, he, ht, hmdb, hpriv, hscfsi, hgran⟩ := exec_loadsi_fields (s := s) (.lsfMono mdb priv) [((0, 0), a)]
      hf rfl (by simpa [takeHead, hlsf, hnch] using takeHeadLsfMono_bits mdb priv) (by simp [ha, hlsf])
      (by simp [groupOrder_eq, hlsf, hnch]) (by simp [Hdr.siSize, hlsf, hnch, siHeadWidth])
    refine ⟨t, ?_, ht, hmdb, hpriv, congrArg (·.get 0) hscfsi, congrArg (·.get 1) hscfsi, hgran ((0, 0), a) (by simp)⟩
    simpa [siHeadBits, Groups.bits] using he
  · have hnch : s.hdr.nch = 2 := if_neg hm
    obtain ⟨t, he, ht, hmdb, hpriv, hscfsi, hgran⟩ := exec_loadsi_fields (s := s) (.lsfStereo mdb priv) [((0, 0), a), ((0, 1), b)]
      hf rfl (by simpa [takeHead, hlsf, hnch] using takeHeadLsfStereo_bits mdb priv) (by simp [ha, hb, hlsf])
      (by simp [groupOrder_eq, hlsf, hnch]) (by simp [Hdr.siSize, hlsf, hnch, siHeadWidth])
    refine ⟨t, ?_, ht, hmdb, hpriv, congrArg (·.get 0) hscfsi, congrArg (·.get 1) hscfsi, hgran ((0, 0), a) (by simp),
      hgran ((0, 1), b) (by simp)⟩
    simpa [siHeadBits, Groups.bits] using he

/-! ### The host's header -/

theorem sfreq_lt_three_iff : ∀ f : BitVec 2, f.toNat < 3 ↔ f ≠ 3#2 := by decide

theorem headerValid_iff (h : HeaderWord) : headerValid h = true ↔
    h.version ≠ 1#2 ∧ h.layer ≠ 0#2 ∧ h.bitrate ≠ 15#4 ∧ h.sfreq ≠ 3#2 ∧ h.emphasis ≠ 2#2 := by
  simp only [headerValid, Bool.and_eq_true, bne_iff_ne, decide_eq_true_eq, sfreq_lt_three_iff, and_assoc]

/-- Settles O19: `headerHdr` copies the fields of a header that passes the check; the check fails exactly on the reserved codes. -/
theorem headerRow : Obligations.HeaderRow := by
  refine fun h s => ⟨fun hversion hlayer hbitrate hsfreq hemphasis => ?_, fun hbad => ?_⟩
  · have hvalid := (headerValid_iff h).2 ⟨hversion, hlayer, hbitrate, hsfreq, hemphasis⟩
    have hlt := (sfreq_lt_three_iff h.sfreq).2 hsfreq
    refine ⟨{ s with hdr := headerHdr h }, ?_, rfl, rfl, ?_, rfl, rfl, bne_iff_ne⟩
    · rw [exec_header, execHeader, if_pos hvalid]
    · simp only [headerHdr, hlt, dif_pos]
  · have hinvalid : ¬headerValid h = true := by
      rw [headerValid_iff]
      tauto
    rw [exec_header, execHeader, if_neg hinvalid]

end Sys2Proof.Machine
end

section
/-! The rows of the main-data stream (30_encoding R100 to R104): scale-factor fields (O25), pair items (O28), quadruple items (O30). -/

namespace Sys2Proof.Machine

open Sys2Proof.Claims

/-! ### Fields at the cursor -/

/-- The bit the cursor reads is the bit of 00_scope R9. -/
theorem bitAt_eq_seqBit (bs : List Byte) (p : Nat) : bitAt bs p = seqBit bs p := by
  have hp : p % 8 < 8 := Nat.mod_lt _ (by decide)
  rw [bitAt, seqBit, BitVec.getMsbD, BitVec.getLsbD, decide_eq_true hp, Bool.true_and, show 8 - 1 - p % 8 = 7 - p % 8 from rfl]

/-- The number the cursor reads is that of the loop of 40_bitcursor_reservoir R131. -/
theorem bitsAt_eq_seqField (bs : List Byte) (p n : Nat) : bitsAt bs p n = seqField bs p n := by
  induction n with
  | zero => rfl
  | succ n ih =>
    rw [bitsAt, ih, bitAt_eq_seqBit, seqField, seqField, List.range_succ, List.foldl_append]
    rfl

theorem getBits_of_fits {n : Nat} {s : State} (h : Fits s n) :
    getBits n s = .ok (seqField s.md s.bitpos n) { s with bitpos := s.bitpos + n } := by
  rw [getBits_ok h, bitsAt_eq_seqField]

/-- `count` fields of `w` bits that are there. -/
theorem readFields_of_fits {w count : Nat} {s : State} (h : Fits s (count * w)) :
    readFields w count s =
      .ok ((List.range count).map fun k => seqField s.md (s.bitpos + k * w) w) { s with bitpos := s.bitpos + count * w } := by
  induction count generalizing s with
  | zero =>
    rw [Nat.zero_mul]
    rfl
  | succ count ih =>
    have hmul : (count + 1) * w = count * w + w := Nat.succ_mul count w
    have hfirst : Fits s w := h.imp (fun e => by omega) fun e => by omega
    have hrest : Fits { s with bitpos := s.bitpos + w } (count * w) :=
      h.imp (fun e => by omega) fun e => by
        show s.bitpos + w + count * w ≤ 8 * s.md.length
        omega
    have hpos : ∀ k, s.bitpos + w + k * w = s.bitpos + (k + 1) * w := fun k => by rw [Nat.succ_mul]; omega
    rw [readFields, getBits_of_fits hfirst, andThen_ok, ih hrest, andThen_ok, List.range_succ_eq_map, List.map_cons, List.map_map]
    simp only [hpos, Nat.zero_mul, Nat.add_zero]
    rfl

/-- Settles O25: one field by `getBits_of_fits`, a partition's run of fields by `readFields_of_fits`. -/
theorem scaleFactorFields : Obligations.ScaleFactorFields := by
  constructor
  · intro gr ch second s w n hfits
    exact exec_scfFieldM1.trans (congrArg (runRet .nat) (getBits_of_fits hfits))
  · intro ch part s g e n w count hfits
    refine exec_scfFieldM2.trans
      ((congrArg (runRet fun vs : List Nat => .ints (vs.map Int.ofNat)) (readFields_of_fits hfits)).trans ?_)
    rw [runRet_ok, List.map_map]
    rfl

/-! ### Pair items -/

/-- The codewords of pair table 1 (42_huffman R178) are 1, 3, 2 and 3 bits long; a sign bit follows for each 1 (30_encoding R102). -/
theorem pairOneBits_length : ∀ nx ny : Bool,
    (pairItemBits 1 0 0 0 0 false false).length = 1 ∧ (pairItemBits 1 0 1 0 0 false ny).length = 4 ∧
    (pairItemBits 1 1 0 0 0 nx false).length = 3 ∧ (pairItemBits 1 1 1 0 0 nx ny).length = 5 := by decide

/-- Table 1 has no escapes: an element's magnitude is what its codeword gives. -/
theorem consumePair_one (x y : Nat) (nx ny : Bool) (s : State) :
    consumePair 1 x y 0 0 nx ny s =
      consume (pairItemBits 1 x y 0 0 nx ny).length (.ints [signed x nx, signed y ny]) s := rfl

theorem signed_one (neg : Bool) : signed 1 neg = if neg then -1 else 1 := by cases neg <;> rfl

/-- Settles O28: a row is a `consume` of its bits and values; those of pair table 1 are counted by `pairOneBits_length`. -/
theorem pairItems : Obligations.PairItems := by
  refine fun s => ⟨fun t x0 y0 lx ly nx ny => exec_pairItem, ?_, fun n => ⟨?_, ?_⟩, fun n m => ?_⟩
  · obtain ⟨hlen, -⟩ := pairOneBits_length false false
    rw [exec_pairOne00, execPairOne00, consumePair_one, hlen]
    rfl
  · obtain ⟨-, hlen, -⟩ := pairOneBits_length false n
    rw [exec_pairOne01, execPairOne01, consumePair_one, hlen, signed_one]
    rfl
  · obtain ⟨-, -, hlen, -⟩ := pairOneBits_length n false
    rw [exec_pairOne10, execPairOne10, consumePair_one, hlen, signed_one]
    rfl
  · obtain ⟨-, -, -, hlen⟩ := pairOneBits_length n m
    rw [exec_pairOne11, execPairOne11, consumePair_one, hlen, signed_one, signed_one]
    rfl

/-! ### Quadruple items -/

theorem quadSignBits_length (v neg : BitVec 4) : (quadSignBits v neg).length = quadSigns v := by
  rw [quadSignBits, List.length_map]
  revert v
  decide

theorem wfSigns_zero : ∀ neg : BitVec 4, wfSigns 0#4 neg = true → neg = 0#4 := by decide

/-- A codeword row does what the item with its value does. The row of `0000` carries no sign bits, as `wfSigns` says it must not. -/
theorem exec_quadInstr (q : Bool) (v : BitVec 4) {neg : BitVec 4} (h : wfSigns v neg = true) (s : State) :
    exec (quadInstr q v neg) s = .next (consumeQuad q v neg s) := by
  by_cases hv : v = 0#4
  · subst hv
    rw [wfSigns_zero neg h]
    cases q <;> rfl
  · obtain ⟨k⟩ := v
    fin_cases k
    · exact absurd rfl hv
    all_goals cases q <;> rfl

/-- Settles O30: an item is a `consume` of its codeword and of a sign bit for each non-zero element (`quadSignBits_length`); a codeword
row is the item of its value (`exec_quadInstr`). -/
theorem quadItems : Obligations.QuadItems := by
  refine fun q v n s => ⟨?_, fun h => ⟨(exec_quadInstr q v h s).trans exec_quadItem.symm, _, exec_quadInstr q v h s⟩⟩
  rw [exec_quadItem, execQuadItem, consumeQuad, consume, quadItemBits, List.length_append, quadSignBits_length, ← Nat.add_assoc]
  rfl

end Sys2Proof.Machine
end

section
/-! The bit cursor (40_bitcursor_reservoir R131 to R134): a read where the bits are there (O9), an over-read (O10), the position (O11). -/

namespace Sys2Proof.Machine

open Sys2Proof.Claims

theorem seqField_lt (bs : List Byte) (p n : Nat) : seqField bs p n < 2 ^ n := bitsAt_eq_seqField bs p n ▸ bitsAt_lt bs p n

/-- Settles O9: `BC.READ n` and `GetBits(n)` are one read (`getBits_of_fits`), whose value has `n` bits (`seqField_lt`). -/
theorem getBitsReads : Obligations.GetBitsReads := by
  intro n s hfits
  have hread : runRet .nat (getBits n.val s) =
      .next { s with bitpos := s.bitpos + n.val, ret := .nat (seqField s.md s.bitpos n.val) } := by
    rw [getBits_of_fits hfits, runRet_ok]
    rfl
  exact ⟨exec_bcRead.trans hread, exec_getBits.trans hread, seqField_lt s.md s.bitpos n.val⟩

/-- Under `OVERREAD = zero` an over-read completes (40_bitcursor_reservoir R134). -/
theorem getBitsWith_zero_of_not_fits {n : Nat} {s : State} (h : ¬Fits s n) :
    getBitsWith .zero n s = .ok (seqField s.md s.bitpos n) { s with bitpos := s.bitpos + n } := by
  obtain ⟨hn, hover⟩ := not_or.1 h
  rw [getBitsWith, if_neg hn, if_pos (Nat.lt_of_not_le hover), bitsAt_eq_seqField]
  rfl

theorem seqBit_beyond_end {bs : List Byte} {p : Nat} (h : 8 * bs.length ≤ p) : seqBit bs p = false := by
  have hbyte : bs.getD (p / 8) 0#8 = 0#8 := List.getD_eq_default _ _ (by omega)
  rw [seqBit, hbyte, BitVec.toNat_ofNat, Nat.zero_mod, Nat.zero_testBit]

/-- Settles O10: under the default policy the read raises (`getBits_overrun`); under the other it completes, on zero bits from the end
on (`seqBit_beyond_end`). -/
theorem overRead : Obligations.OverRead := by
  refine ⟨fun n s hover => ?_, fun n s hover => ⟨getBitsWith_zero_of_not_fits hover, fun p => seqBit_beyond_end⟩⟩
  have hraise : runRet .nat (getBits n.val s) = .next (takeException .bitsOverrun [] s) := by
    rw [getBits_overrun hover, runRet_raised]
  exact ⟨exec_bcRead.trans hraise, exec_getBits.trans hraise, takeException_faulted (by decide) [] s⟩

/-- Settles O11: `BC.POS` reads `BITPOS` and `BC.SETPOS` writes it; neither reads `MD`. -/
theorem cursorPosition : Obligations.CursorPosition := fun _ _ => ⟨exec_bcPos, exec_bcSetpos⟩

end Sys2Proof.Machine
end

section
/-! The reservoir (40_bitcursor_reservoir R135 to R138): the checks (O12), `RSV.APPEND` (O13), `RSV.SPLICE` (O14). -/

namespace Sys2Proof.Machine

open Sys2Proof.Claims

theorem opRsvCheck_eq (s : State) : opRsvCheck s =
    if 0 ≤ s.hdr.mainSize ∧ s.hdr.mainSize ≤ 1500 then .ok () (s.stage .rsvCheck 0 0)
    else .raised .mainSize (s.stage .rsvCheck 0 0) := by
  show (if 1500 < s.hdr.mainSize then _ else if s.hdr.mainSize < 0 then _ else _) = _
  by_cases hhigh : 1500 < s.hdr.mainSize
  · rw [if_pos hhigh, if_neg (by omega)]
  · by_cases hlow : s.hdr.mainSize < 0
    · rw [if_neg hhigh, if_pos hlow, if_neg (by omega)]
    · rw [if_neg hhigh, if_neg hlow, if_pos (by omega)]

theorem opRsvRecv_eq (main : List Byte) (s : State) : opRsvRecv main s =
    if (main.length : Int) < s.hdr.mainSize then .raised .mainTruncated (s.stage .rsvRecv 0 0) else .ok () (s.stage .rsvRecv 0 0) := rfl

/-- Settles O12: `opRsvCheck_eq` and `opRsvRecv_eq` say where each check completes; a raise is a fault with the stage's place. -/
theorem reservoirChecks : Obligations.ReservoirChecks := by
  refine fun main s => ⟨fun hsize => ?_, fun hsize => ⟨_, ?_, takeException_faulted (by decide) [] (s.stage .rsvCheck 0 0)⟩,
    fun hlen => ?_, fun hlen => ⟨_, ?_, takeException_faulted (by decide) main (s.stage .rsvRecv 0 0)⟩⟩
  · rw [exec_rsvCheck, execRsvCheck, opRsvCheck_eq, if_pos hsize, run_ok]
    rfl
  · rw [exec_rsvCheck, execRsvCheck, opRsvCheck_eq, if_neg (by omega), run_raised]
  · rw [exec_rsvRecv, execRsvRecv, opRsvRecv_eq, if_neg (by omega), settle_ok]
    rfl
  · rw [exec_rsvRecv, execRsvRecv, opRsvRecv_eq, if_pos hlen, settle_raised]

/-- Settles O13: `RSV.APPEND` always raises `Skipped`, which keeps what it does not record (`takeException_skipped`). -/
theorem reservoirAppend : Obligations.ReservoirAppend := by
  intro main s
  rw [exec_rsvAppend, execRsvAppend, opRsvAppend, settle_raised, takeException_skipped]
  rfl

/-- The reservoir's tail of `SI.MAIN_DATA_BEGIN` bytes and `MAIN` (40_bitcursor_reservoir R138). -/
def spliceBytes (main : List Byte) (s : State) : List Byte := s.rsv.drop (s.rsv.length - s.si.mainDataBegin.toNat) ++ main

/-- What `RSV.SPLICE` leaves where the history is there. -/
def spliced (main : List Byte) (s : State) : State :=
  { s with md := spliceBytes main s, rsv := spliceBytes main s, bitpos := 0, seq := ⟨.rsvSplice, 0, 0⟩ }

theorem tailBytes_of_le {bs : List Byte} {n : Nat} (h : n ≤ bs.length) : tailBytes bs n = bs.drop (bs.length - n) := if_pos h

theorem opRsvSplice_of_history {main : List Byte} {s : State} (h : s.si.mainDataBegin.toNat ≤ s.rsv.length) :
    opRsvSplice main s = .ok () (spliced main s) := by
  rw [opRsvSplice, State.stage_rsv, State.stage_si, tailBytes_of_le h]
  rfl

theorem spliceBytes_length {main : List Byte} {s : State} (h : s.si.mainDataBegin.toNat ≤ s.rsv.length) :
    (spliceBytes main s).length = s.si.mainDataBegin.toNat + main.length := by
  rw [spliceBytes, List.length_append, List.length_drop, Nat.sub_sub_self h]

/-- A tail of the reservoir and `MAIN` is a tail of both together. -/
theorem spliceBytes_getElem? (main : List Byte) (s : State) (k : Nat) :
    (spliceBytes main s)[k]? = (s.rsv ++ main)[s.rsv.length - s.si.mainDataBegin.toNat + k]? := by
  rw [spliceBytes, ← List.drop_append_of_le_length (Nat.sub_le _ _), List.getElem?_drop]

/-- Settles O14: `RSV.SPLICE` ends in `spliced`, whose bytes `spliceBytes_getElem?` places. -/
theorem reservoirSplice : Obligations.ReservoirSplice := by
  refine fun main s h => ⟨spliceBytes main s, ?_, spliceBytes_length h, fun k _ => spliceBytes_getElem? main s k⟩
  rw [exec_rsvSplice, execRsvSplice, opRsvSplice_of_history h, settle_ok]
  rfl

end Sys2Proof.Machine
end

section
/-! The reservoir after a frame (O57; 40_bitcursor_reservoir R139): nothing after `RSV.SPLICE` writes `RSV` or `MD`, and what raises after it
raises a cause of parsing or reconstruction. -/

namespace Sys2Proof.Machine

open Sys2Proof.Claims

/-! ### The causes of parsing and reconstruction -/

/-- The operation completes, or raises a cause of parsing or reconstruction: 0x03 to 0x09 (60_exceptions R287). -/
def Res.RaisesDecoding {α : Type} : Res α → Prop
  | .ok _ _ => True
  | .raised c _ => 3 ≤ c.code.toNat ∧ c.code.toNat ≤ 9

theorem Res.RaisesDecoding.andThen {α β : Type} {r : Res α} {k : α → State → Res β} (h : r.RaisesDecoding)
    (hk : ∀ a t, (k a t).RaisesDecoding) : (r.andThen k).RaisesDecoding := by
  cases r with
  | ok a t => exact hk a t
  | raised c t => exact h

theorem Res.RaisesDecoding.forEach {ι : Type} {f : ι → State → Res Unit} (hf : ∀ x t, (f x t).RaisesDecoding) {xs : List ι}
    {s : State} : (Machine.forEach xs f s).RaisesDecoding := by
  induction xs generalizing s with
  | nil => trivial
  | cons x xs ih => exact (hf x s).andThen fun _ _ => ih

theorem getBits_raisesDecoding (n : Nat) (s : State) : (getBits n s).RaisesDecoding := by
  by_cases hfits : Fits s n
  · rw [getBits_of_fits hfits]
    trivial
  · rw [getBits_overrun hfits]
    exact ⟨by decide, by decide⟩

/-! ### Scale factors -/

theorem readLong_raisesDecoding (gr ch : Fin 2) (w b : Nat) (s : State) : (readLong gr ch w b s).RaisesDecoding :=
  (getBits_raisesDecoding w s).andThen fun _ _ => trivial

theorem copyLong_raisesDecoding (ch : Fin 2) (b : Nat) (s : State) : (copyLong ch b s).RaisesDecoding := trivial

theorem readShort_raisesDecoding (gr ch : Fin 2) (w b : Nat) (s : State) : (readShort gr ch w b s).RaisesDecoding := by
  refine .forEach fun win t => ?_
  exact (getBits_raisesDecoding w t).andThen fun _ _ => trivial

theorem scfGroup_raisesDecoding (gr ch : Fin 2) (k b0 b1 w : Nat) (s : State) : (scfGroup gr ch k b0 b1 w s).RaisesDecoding := by
  unfold scfGroup
  split
  · exact .forEach (readLong_raisesDecoding gr ch w)
  · exact .forEach (copyLong_raisesDecoding ch)

theorem scfM1Short_raisesDecoding (gr ch : Fin 2) (b0 w v : Nat) (s : State) : (scfM1Short gr ch b0 w v s).RaisesDecoding :=
  .forEach fun b => readShort_raisesDecoding gr ch _ b

theorem scfM1Long_raisesDecoding (gr ch : Fin 2) (w v : Nat) (s : State) : (scfM1Long gr ch w v s).RaisesDecoding :=
  (scfGroup_raisesDecoding ..).andThen fun _ _ => (scfGroup_raisesDecoding ..).andThen fun _ _ =>
    (scfGroup_raisesDecoding ..).andThen fun _ _ => scfGroup_raisesDecoding ..

theorem opScfM1_raisesDecoding (gr ch : Fin 2) (s : State) : (opScfM1 gr ch s).RaisesDecoding := by
  unfold opScfM1
  refine Res.RaisesDecoding.andThen ?_ fun _ _ => trivial
  split
  · exact (Res.RaisesDecoding.forEach (readLong_raisesDecoding gr ch _)).andThen fun _ t => scfM1Short_raisesDecoding gr ch _ _ _ t
  · split
    · exact scfM1Short_raisesDecoding ..
    · exact scfM1Long_raisesDecoding ..

theorem readFields_raisesDecoding (w n : Nat) (s : State) : (readFields w n s).RaisesDecoding := by
  induction n generalizing s with
  | zero => trivial
  | succ n ih => exact (getBits_raisesDecoding w s).andThen fun _ t => (ih t).andThen fun _ _ => trivial

theorem readPartitions_raisesDecoding (n : Nat) (e : Nslen2) (parts : List Nat) (s : State) :
    (readPartitions n e parts s).RaisesDecoding := by
  induction parts generalizing s with
  | nil => trivial
  | cons i rest ih => exact (readFields_raisesDecoding _ _ s).andThen fun _ t => (ih t).andThen fun _ _ => trivial

theorem distribute_raisesDecoding (ch : Fin 2) (list : List Nat) (s : State) : (distribute ch list s).RaisesDecoding := by
  unfold distribute
  split
  · trivial
  · split
    · trivial
    · exact ⟨by decide, by decide⟩

theorem opScfM2_raisesDecoding (ch : Fin 2) (s : State) : (opScfM2 ch s).RaisesDecoding :=
  (readPartitions_raisesDecoding ..).andThen fun _ t => (distribute_raisesDecoding ch _ t).andThen fun _ _ => trivial

/-! ### The Huffman decoder -/

theorem readCodeword_raisesDecoding {α : Type} (b : Book α) (fuel : Nat) (w : List Bool) (s : State) :
    (readCodeword b fuel w s).RaisesDecoding := by
  induction fuel generalizing w s with
  | zero => exact ⟨by decide, by decide⟩
  | succ n ih =>
    refine (getBits_raisesDecoding 1 s).andThen fun v t => ?_
    dsimp only
    split
    · trivial
    · split
      · exact ih _ t
      · exact ⟨by decide, by decide⟩

theorem readEscape_raisesDecoding (t x : Nat) (s : State) : (readEscape t x s).RaisesDecoding := by
  unfold readEscape
  split
  · exact (getBits_raisesDecoding _ s).andThen fun _ _ => trivial
  · trivial

theorem readSign_raisesDecoding (mag : Nat) (s : State) : (readSign mag s).RaisesDecoding := by
  unfold readSign
  split
  · exact (getBits_raisesDecoding 1 s).andThen fun _ _ => trivial
  · trivial

theorem opHufPair_raisesDecoding (t : Nat) (s : State) : (opHufPair t s).RaisesDecoding := by
  unfold opHufPair
  split
  · trivial
  · split
    · exact ⟨by decide, by decide⟩
    · exact (readCodeword_raisesDecoding ..).andThen fun _ _ =>
        (readEscape_raisesDecoding ..).andThen fun _ _ => (readSign_raisesDecoding ..).andThen fun _ _ =>
        (readEscape_raisesDecoding ..).andThen fun _ _ => (readSign_raisesDecoding ..).andThen fun _ _ => trivial

theorem opHufQuad_raisesDecoding (q : Bool) (s : State) : (opHufQuad q s).RaisesDecoding :=
  (readCodeword_raisesDecoding ..).andThen fun _ _ =>
    (readSign_raisesDecoding ..).andThen fun _ _ => (readSign_raisesDecoding ..).andThen fun _ _ =>
    (readSign_raisesDecoding ..).andThen fun _ _ => (readSign_raisesDecoding ..).andThen fun _ _ => trivial

theorem bigPair_raisesDecoding (gr ch : Fin 2) (g : Gran) (r : Nat × Nat) (k : Nat) (s : State) :
    (bigPair gr ch g r k s).RaisesDecoding :=
  (opHufPair_raisesDecoding _ s).andThen fun _ _ => trivial

theorem opHufBig_raisesDecoding (gr ch : Fin 2) (s : State) : (opHufBig gr ch s).RaisesDecoding := by
  unfold opHufBig
  dsimp only
  split
  · exact ⟨by decide, by decide⟩
  · split
    · exact ⟨by decide, by decide⟩
    · exact .forEach (bigPair_raisesDecoding gr ch _ _)

theorem cnt1Loop_raisesDecoding (gr ch : Fin 2) (q : Bool) (e fuel p : Nat) (s : State) :
    (cnt1Loop gr ch q e fuel p s).RaisesDecoding := by
  induction fuel generalizing p s with
  | zero => trivial
  | succ n ih =>
    unfold cnt1Loop
    split
    · exact (opHufQuad_raisesDecoding q s).andThen fun _ _ => ih _ _
    · trivial

theorem opHufGranule_raisesDecoding (gr ch : Fin 2) (start : Nat) (s : State) : (opHufGranule gr ch start s).RaisesDecoding := by
  unfold opHufGranule
  dsimp only
  split
  · trivial
  · exact (opHufBig_raisesDecoding gr ch _).andThen fun _ _ => (cnt1Loop_raisesDecoding ..).andThen fun _ _ => trivial

theorem parseMain_raisesDecoding (s : State) : (parseMain s).RaisesDecoding := by
  refine .forEach fun g t => ?_
  unfold parseOne
  refine Res.RaisesDecoding.andThen ?_ fun _ u => opHufGranule_raisesDecoding g.1 g.2 _ u
  split
  · exact opScfM2_raisesDecoding g.2 t
  · exact opScfM1_raisesDecoding g.1 g.2 t

/-! ### Reconstruction -/

theorem opStereo_raisesDecoding (gr : Fin 2) (s : State) : (opStereo gr s).RaisesDecoding := by
  unfold opStereo
  dsimp only
  split
  · trivial
  · split
    · trivial
    · split
      · exact ⟨by decide, by decide⟩
      · trivial

theorem beforeStereo_raisesDecoding (gr ch : Fin 2) (s : State) : (beforeStereo gr ch s).RaisesDecoding := trivial

theorem afterStereo_raisesDecoding (gr ch : Fin 2) (s : State) : (afterStereo gr ch s).RaisesDecoding := trivial

/-- `STEREO` alone raises; the stages before it and after it complete. -/
theorem reconstruct_raisesDecoding (s : State) : (reconstruct s).RaisesDecoding :=
  .forEach fun gr _ => (Res.RaisesDecoding.forEach (beforeStereo_raisesDecoding gr)).andThen fun _ t =>
    (opStereo_raisesDecoding gr t).andThen fun _ _ => .forEach (afterStereo_raisesDecoding gr)

/-! ### The frame -/

/-- Steps 8 to 10 of `FRAME` (47_frame_control R266): all that follows the reservoir. -/
def decodeMain (s : State) : Res Unit :=
  (opScfClear s).andThen fun _ s => (parseMain s).andThen fun _ s => reconstruct s

theorem decodeMain_raisesDecoding (s : State) : (decodeMain s).RaisesDecoding :=
  (parseMain_raisesDecoding _).andThen fun _ t => reconstruct_raisesDecoding t

/-- The reservoir and the main data. -/
def State.mainBytes (s : State) : List Byte × List Byte := (s.rsv, s.md)

theorem Parses.mainBytes {s t : State} (h : Parses s t) : t.mainBytes = s.mainBytes := by
  obtain ⟨-, -, hrsv, hmd, -⟩ := State.persistent_eq h.2.1
  exact Prod.ext hrsv hmd

theorem Rebuilds.mainBytes {s t : State} (h : Rebuilds s t) : t.mainBytes = s.mainBytes := by
  obtain ⟨-, hrsv, hmd, -⟩ := h
  exact Prod.ext hrsv hmd

theorem decodeMain_keeps_mainBytes (s : State) : (decodeMain s).Ends fun t => t.mainBytes = s.mainBytes :=
  ((opScfClear_parses s).mono fun _ => Parses.mainBytes).andThen fun _ t k =>
    ((parseMain_parses t).mono fun _ h => h.mainBytes.trans k).andThen fun _ u l =>
      (reconstruct_rebuilds u).mono fun _ h => h.mainBytes.trans l

theorem decodeMain_ok {s t : State} (h : decodeMain s = .ok () t) : t.rsv = s.rsv ∧ t.md = s.md := by
  have hkept := decodeMain_keeps_mainBytes s
  rw [h] at hkept
  exact Prod.mk.inj hkept

theorem decodeMain_raised {c : Cause} {s t : State} (h : decodeMain s = .raised c t) : 3 ≤ c.code.toNat ∧ c.code.toNat ≤ 9 := by
  have hcause := decodeMain_raisesDecoding s
  rwa [h] at hcause

/-- A frame that passes its checks and has its history goes on from the spliced reservoir. -/
theorem opFrame_of_checks {r : FrameRec} {s : State} (hframe : s.hdr.frameSize.toNat ≤ 2000) (himage : s.hdr.siSize ≤ r.siImage.length)
    (hsize : 0 ≤ s.hdr.mainSize ∧ s.hdr.mainSize ≤ 1500) (hmain : s.hdr.mainSize ≤ r.main.length)
    (hhistory : (unpackSi s.hdr r.siImage s.si).mainDataBegin.toNat ≤ s.rsv.length) :
    opFrame r s = decodeMain (spliced r.main (loaded r.siImage s)) := by
  have hload : opLoadsi r.siImage s = .ok () (loaded r.siImage s) := by
    rw [opLoadsi_eq, if_neg (Nat.not_lt.2 hframe), if_neg (Nat.not_lt.2 himage)]
  have hcheck : opRsvCheck (loaded r.siImage s) = .ok () ((loaded r.siImage s).stage .rsvCheck 0 0) := by
    rw [opRsvCheck_eq]
    exact if_pos hsize
  have hrecv : opRsvRecv r.main ((loaded r.siImage s).stage .rsvCheck 0 0) = .ok () ((loaded r.siImage s).stage .rsvRecv 0 0) := by
    rw [opRsvRecv_eq]
    exact if_neg (Int.not_lt.2 hmain)
  have hsplice : reservoir r.main ((loaded r.siImage s).stage .rsvRecv 0 0) = .ok () (spliced r.main (loaded r.siImage s)) :=
    (if_neg (Nat.not_lt.2 hhistory)).trans (opRsvSplice_of_history hhistory)
  rw [opFrame, hload, andThen_ok, hcheck, andThen_ok, hrecv, andThen_ok, hsplice, andThen_ok]
  rfl

theorem execFrame_of_wf {r : FrameRec} {s : State} (hwf : r.wf = true) (hfault : s.status.fault = false) :
    execFrame r s = settle (r.siImage ++ r.main) (fun _ => frameEnd) (opFrame r (frameSetup r s)) := by
  rw [execFrame, if_pos hwf, frameNext, if_neg (by simp [hfault])]
  cases opFrame r (frameSetup r s) <;> rfl

/-- Settles O57: after the checks a frame is `decodeMain` of the spliced state (`opFrame_of_checks`), which keeps `RSV` and `MD` and raises
only causes of parsing and reconstruction. -/
theorem reservoirAfterFrame : Obligations.ReservoirAfterFrame := by
  intro r s hfault hframe himage hmain hmax hhistory
  have hwf : r.wf = true := by simp [FrameRec.wf, himage, ← hmain]
  have hsize : 0 ≤ r.hdr.mainSize ∧ r.hdr.mainSize ≤ 1500 := by omega
  have hrun := opFrame_of_checks (s := frameSetup r s) hframe himage.ge hsize hmain.ge hhistory
  rw [exec_frame, execFrame_of_wf hwf hfault, hrun]
  cases hend : decodeMain (spliced r.main (loaded r.siImage (frameSetup r s))) with
  | raised c t =>
    obtain ⟨hlow, hhigh⟩ := decodeMain_raised hend
    have hc : c ≠ .rsvInsufficient := fun h => absurd (h ▸ hhigh) (by decide)
    exact ⟨_, rfl, .inl ⟨c, takeException_faulted hc _ t, hlow, hhigh⟩⟩
  | ok _ t =>
    obtain ⟨hrsv, hmd⟩ := decodeMain_ok hend
    have hlen : t.rsv.length = (unpackSi r.hdr r.siImage s.si).mainDataBegin.toNat + r.main.length :=
      (congrArg List.length hrsv).trans (spliceBytes_length hhistory)
    refine ⟨_, rfl, .inr ⟨_, rfl, hrsv.trans hmd.symm, hrsv, ?_⟩⟩
    rw [← hmain]
    exact_mod_cast hlen

end Sys2Proof.Machine
end

section
/-! Scale factors (41_scalefactors R150 to R158): `SCF.CLEAR` (O20), the three forms of `SCF.M1` (O21, O22, O23), `SCF.M2` (O24).
The fields of a form fill consecutive cells of one row, so each loop is followed by the state after its first `n` fields
(`longAfter`, `shortAfter`). -/

namespace Sys2Proof

/-- The row with its `n` cells from `lo` on replaced by `v 0`, `v 1`, ... -/
def Bank.overlay {α : Type} {m : Nat} (b : Bank α m) (d : α) (lo n : Nat) (v : Nat → α) : Bank α m :=
  .tab m fun i => if lo ≤ i ∧ i < lo + n then v (i - lo) else b.get i d

theorem Bank.get_overlay_inside {α : Type} {m lo n i : Nat} (b : Bank α m) (d : α) (v : Nat → α) (hi : i < n) (hm : lo + n ≤ m) :
    (b.overlay d lo n v).get (lo + i) d = v i := by
  rw [overlay, get_tab _ _ (by omega), if_pos (by omega), Nat.add_sub_cancel_left]

theorem Bank.get_overlay_outside {α : Type} {m lo n i : Nat} (b : Bank α m) (d : α) (v : Nat → α) (hi : i < lo ∨ lo + n ≤ i) :
    (b.overlay d lo n v).get i d = b.get i d := by
  by_cases hm : i < m
  · rw [overlay, get_tab _ _ hm, if_neg (by omega)]
  · rw [get_of_le _ _ (Nat.le_of_not_lt hm), get_of_le _ _ (Nat.le_of_not_lt hm)]

@[simp] theorem Bank.overlay_zero {α : Type} {m : Nat} (b : Bank α m) (d : α) (lo : Nat) (v : Nat → α) : b.overlay d lo 0 v = b :=
  Bank.ext_get d fun _ _ => get_overlay_outside b d v (by omega)

theorem Bank.set_overlay {α : Type} {m lo n : Nat} (b : Bank α m) (d : α) (v : Nat → α) (h : lo + n < m) :
    (b.overlay d lo n v).set (lo + n) (v n) = b.overlay d lo (n + 1) v := by
  refine Bank.ext_get d fun i hi => ?_
  by_cases hin : i = lo + n
  · rw [hin, get_set_same _ _ _ h, get_overlay_inside _ _ _ (by omega) (by omega)]
  · rw [get_set_other _ _ _ (Ne.symm hin)]
    by_cases hcell : lo ≤ i ∧ i < lo + n
    · obtain ⟨k, rfl⟩ := Nat.exists_eq_add_of_le hcell.1
      rw [get_overlay_inside _ _ _ (by omega) (by omega), get_overlay_inside _ _ _ (by omega) (by omega)]
    · rw [get_overlay_outside _ _ _ (by omega), get_overlay_outside _ _ _ (by omega)]

theorem Two.get_get_set_set {α : Type} (p : Two (Two α)) (i j i' j' : Fin 2) (x : α) :
    ((p.set i ((p.get i).set j x)).get i').get j' = if i' = i ∧ j' = j then x else (p.get i').get j' := by
  rw [get_set]
  by_cases hi : i' = i
  · rw [if_pos hi.symm, get_set, hi]
    simp only [true_and, eq_comm]
  · rw [if_neg (Ne.symm hi), if_neg fun h => hi h.1]

theorem Bank.get_tab_const {α : Type} (m i : Nat) (x : α) : (Bank.tab m fun _ => x).get i x = x := by
  by_cases h : i < m
  · exact get_tab _ _ h
  · exact get_of_le _ _ (Nat.le_of_not_lt h)

end Sys2Proof

namespace Sys2Proof.Machine

open Sys2Proof.Claims

/-- Settles O20: both files become tables of 0 (41_scalefactors R151). -/
theorem scaleFactorClear : Obligations.ScaleFactorClear := fun s =>
  ⟨{ s with seq := ⟨.scfClear, 0, 0⟩, scfL := .both (.both (.tab 22 fun _ => 0)), scfS := .both (.both (.tab 39 fun _ => 0)) },
    exec_scfClear, rfl, fun gr ch b win => by
      simp only [State.scfLong, State.scfShort, Two.get_both, Bank.get_tab_const, and_self]⟩

/-! ### A run of fields

A run is the list `ws` of its fields' widths; `fieldAt s ws k` is the register value of field `k`. -/

/-- The number in field `k` of a run of fields that starts at the cursor. -/
def fieldNat (s : State) (ws : List Nat) (k : Nat) : Nat := seqField s.md (s.bitpos + (ws.take k).sum) (ws.getD k 0)

theorem fieldAt_eq (s : State) (ws : List Nat) (k : Nat) : fieldAt s ws k = BitVec.ofNat 4 (fieldNat s ws k) := rfl

theorem sum_take_succ_getD (ws : List Nat) (n : Nat) : (ws.take (n + 1)).sum = (ws.take n).sum + ws.getD n 0 := by
  by_cases h : n < ws.length
  · rw [List.sum_take_succ _ _ h, List.getD_eq_getElem _ _ h]
  · rw [List.take_of_length_le (by omega), List.take_of_length_le (by omega), List.getD_eq_default _ _ (by omega), Nat.add_zero]

theorem sum_take_le (ws : List Nat) (n : Nat) : (ws.take n).sum ≤ ws.sum :=
  (List.take_sublist n ws).sum_le_sum fun _ _ => Nat.zero_le _

theorem fits_of_le {s : State} {m n : Nat} (h : Fits s n) (hmn : m ≤ n) : Fits s m := by
  unfold Fits at *
  omega

theorem fits_rest {s t : State} {m n : Nat} (h : Fits s (m + n)) (hmd : t.md = s.md) (hpos : t.bitpos = s.bitpos + m) : Fits t n := by
  unfold Fits at *
  rw [hmd, hpos]
  omega

/-- Field `n` read where the run's first `n` fields have been. -/
theorem getBits_field {s t : State} {ws : List Nat} {n w : Nat} (hfits : Fits s ws.sum) (hw : w = ws.getD n 0) (hmd : t.md = s.md)
    (hpos : t.bitpos = s.bitpos + (ws.take n).sum) :
    getBits w t = .ok (fieldNat s ws n) { t with bitpos := s.bitpos + (ws.take (n + 1)).sum } := by
  have hsum := sum_take_succ_getD ws n
  have hle := sum_take_le ws (n + 1)
  have hfield : Fits t w := fits_rest (fits_of_le hfits (by omega)) hmd hpos
  rw [getBits_of_fits hfield, hmd, hpos, hsum, fieldNat, hw, Nat.add_assoc]

theorem fieldNat_append_left {s : State} {ws : List Nat} (vs : List Nat) {k : Nat} (h : k < ws.length) :
    fieldNat s (ws ++ vs) k = fieldNat s ws k := by
  rw [fieldNat, List.take_append_of_le_length h.le, List.getD_append _ _ _ _ h, fieldNat]

theorem fieldNat_append_right {s t : State} {ws : List Nat} (vs : List Nat) (k : Nat) (hmd : t.md = s.md)
    (hpos : t.bitpos = s.bitpos + ws.sum) : fieldNat s (ws ++ vs) (ws.length + k) = fieldNat t vs k := by
  rw [fieldNat, List.take_length_add_append, List.sum_append, List.getD_append_right _ _ _ _ (Nat.le_add_right _ _),
    Nat.add_sub_cancel_left, ← Nat.add_assoc, ← hmd, ← hpos, fieldNat]

/-- A loop over consecutive numbers whose every turn leads from one state of a sequence to the next. -/
theorem forEach_range {f : Nat → State → Res Unit} {S : Nat → State} {a b : Nat} (hab : a ≤ b)
    (h : ∀ i, a ≤ i → i < b → f i (S i) = .ok () (S (i + 1))) : forEach (range a b) f (S a) = .ok () (S b) := by
  obtain ⟨k, rfl⟩ := Nat.exists_eq_add_of_le hab
  rw [range, Nat.add_sub_cancel_left]
  induction k generalizing a with
  | zero => rfl
  | succ k ih =>
    rw [List.range'_succ, forEach_cons, h a le_rfl (by omega), andThen_ok, ih (by omega) fun i hi hk => h i (by omega) (by omega),
      Nat.add_right_comm, Nat.add_assoc]

/-! ### The long row -/

/-- The state after the first `n` fields `ws` of the long row, whose bands take the values `v`. -/
def longAfter (gr ch : Fin 2) (v : Nat → BitVec 4) (ws : List Nat) (s : State) (n : Nat) : State :=
  { s with
    bitpos := s.bitpos + (ws.take n).sum
    scfL := s.scfL.set gr ((s.scfL.get gr).set ch (((s.scfL.get gr).get ch).overlay 0 0 n v)) }

section
variable {gr ch : Fin 2} {v : Nat → BitVec 4} {ws : List Nat} {s : State} {n b : Nat}

theorem longAfter_zero : longAfter gr ch v ws s 0 = s := by
  simp only [longAfter, List.take_zero, List.sum_nil, Nat.add_zero, Bank.overlay_zero, Two.set_get]

theorem longAfter_all (h : ws.length ≤ n) : longAfter gr ch v ws s n =
    { s with bitpos := s.bitpos + ws.sum, scfL := (longAfter gr ch v ws s n).scfL } := by
  rw [longAfter, List.take_of_length_le h]

/-- The next band's value stored. -/
theorem longAfter_succ (hb : b < 22) :
    State.setScfLong { longAfter gr ch v ws s b with bitpos := s.bitpos + (ws.take (b + 1)).sum } gr ch b (v b) =
      longAfter gr ch v ws s (b + 1) := by
  have hset := Bank.set_overlay ((s.scfL.get gr).get ch) 0 v (lo := 0) (n := b) (by omega)
  rw [Nat.zero_add] at hset
  simp only [State.setScfLong, longAfter, Two.get_set_same, Two.set_set, hset]

theorem longAfter_scfLong_inside (hb : b < n) (hn : n ≤ 22) : (longAfter gr ch v ws s n).scfLong gr ch b = v b := by
  have hcell := Bank.get_overlay_inside ((s.scfL.get gr).get ch) 0 v hb (lo := 0) (by omega)
  rw [Nat.zero_add] at hcell
  simp only [State.scfLong, longAfter, Two.get_set_same, hcell]

theorem longAfter_scfLong_outside {gr' ch' : Fin 2} (h : n ≤ b ∨ ¬(gr' = gr ∧ ch' = ch)) :
    (longAfter gr ch v ws s n).scfLong gr' ch' b = s.scfLong gr' ch' b := by
  by_cases hrow : gr' = gr ∧ ch' = ch
  · obtain ⟨rfl, rfl⟩ := hrow
    have hb : n ≤ b := h.resolve_right (not_not_intro ⟨rfl, rfl⟩)
    simp only [State.scfLong, longAfter, Two.get_set_same]
    exact Bank.get_overlay_outside _ _ _ (by omega)
  · rw [State.scfLong, longAfter, Two.get_get_set_set, if_neg hrow, State.scfLong]

/-- The next band's field read. -/
theorem readLong_longAfter {w : Nat} (hfits : Fits s ws.sum) (hb : b < 22) (hw : w = ws.getD b 0) (hv : v b = fieldAt s ws b) :
    readLong gr ch w b (longAfter gr ch v ws s b) = .ok () (longAfter gr ch v ws s (b + 1)) := by
  rw [readLong, getBits_field (t := longAfter gr ch v ws s b) hfits hw rfl rfl, andThen_ok, ← fieldAt_eq, ← hv, longAfter_succ hb]

/-- The next band copied from granule 0; it has no field. -/
theorem copyLong_longAfter (hb : b < 22) (hw : ws.getD b 0 = 0) (hv : v b = s.scfLong 0 ch b) :
    copyLong ch b (longAfter 1 ch v ws s b) = .ok () (longAfter 1 ch v ws s (b + 1)) := by
  have hvalue : (longAfter 1 ch v ws s b).scfLong 0 ch b = v b := by
    rw [hv, longAfter_scfLong_outside (.inr fun h => absurd h.1 (by decide))]
  have hpos : (ws.take (b + 1)).sum = (ws.take b).sum := by rw [sum_take_succ_getD, hw, Nat.add_zero]
  rw [copyLong, hvalue, ← longAfter_succ hb, hpos]
  rfl

end

/-! ### The short row -/

/-- The state after the first `n` fields `ws` of the short row's cells from `lo` on. -/
def shortAfter (gr ch : Fin 2) (lo : Nat) (ws : List Nat) (s : State) (n : Nat) : State :=
  { s with
    bitpos := s.bitpos + (ws.take n).sum
    scfS := s.scfS.set gr ((s.scfS.get gr).set ch (((s.scfS.get gr).get ch).overlay 0 lo n (fieldAt s ws))) }

section
variable {gr ch : Fin 2} {lo : Nat} {ws : List Nat} {s : State} {n b win : Nat}

theorem shortAfter_zero : shortAfter gr ch lo ws s 0 = s := by
  simp only [shortAfter, List.take_zero, List.sum_nil, Nat.add_zero, Bank.overlay_zero, Two.set_get]

theorem shortAfter_all (h : ws.length ≤ n) : shortAfter gr ch lo ws s n =
    { s with bitpos := s.bitpos + ws.sum, scfS := (shortAfter gr ch lo ws s n).scfS } := by
  rw [shortAfter, List.take_of_length_le h]

theorem shortAfter_cell_inside {k : Nat} (hk : k < n) (hn : lo + n ≤ 39) :
    (((shortAfter gr ch lo ws s n).scfS.get gr).get ch).get (lo + k) 0 = fieldAt s ws k := by
  simp only [shortAfter, Two.get_set_same]
  exact Bank.get_overlay_inside _ _ _ hk hn

theorem shortAfter_cell_outside {gr' ch' : Fin 2} {k : Nat} (h : k < lo ∨ lo + n ≤ k ∨ ¬(gr' = gr ∧ ch' = ch)) :
    (((shortAfter gr ch lo ws s n).scfS.get gr').get ch').get k 0 = ((s.scfS.get gr').get ch').get k 0 := by
  by_cases hrow : gr' = gr ∧ ch' = ch
  · obtain ⟨rfl, rfl⟩ := hrow
    simp only [shortAfter, Two.get_set_same]
    exact Bank.get_overlay_outside _ _ _ (by tauto)
  · rw [shortAfter, Two.get_get_set_set, if_neg hrow]

/-- The next window's field read. -/
theorem readWindow_shortAfter {w : Nat} (hfits : Fits s ws.sum) (hk : 3 * b + win = lo + n) (hn : lo + n < 39)
    (hw : w = ws.getD n 0) :
    ((getBits w (shortAfter gr ch lo ws s n)).andThen fun v t => .ok () (t.setScfShort gr ch b win (BitVec.ofNat 4 v))) =
      .ok () (shortAfter gr ch lo ws s (n + 1)) := by
  have hset := Bank.set_overlay ((s.scfS.get gr).get ch) 0 (fieldAt s ws) hn
  rw [getBits_field (t := shortAfter gr ch lo ws s n) hfits hw rfl rfl, andThen_ok, ← fieldAt_eq, State.setScfShort, hk]
  simp only [shortAfter, Two.get_set_same, Two.set_set, hset]

/-- The next band's three fields read. -/
theorem readShort_shortAfter {w : Nat} (hfits : Fits s ws.sum) (hk : 3 * b = lo + n) (hn : lo + n + 2 < 39)
    (hw : ∀ win, win < 3 → w = ws.getD (n + win) 0) :
    readShort gr ch w b (shortAfter gr ch lo ws s n) = .ok () (shortAfter gr ch lo ws s (n + 3)) := by
  have hwin (win : Nat) (h : win < 3) := readWindow_shortAfter (gr := gr) (ch := ch) (lo := lo) (b := b) (win := win) (n := n + win)
    hfits (by omega) (by omega) (hw win h)
  have hfirst := hwin 0 (by decide)
  rw [Nat.add_zero] at hfirst
  rw [readShort, forEach_cons, hfirst, andThen_ok, forEach_cons, hwin 1 (by decide), andThen_ok, forEach_cons,
    hwin 2 (by decide), andThen_ok, forEach_nil]

end

/-! ### `SCF.M1` -/

/-- `(slen1, slen2)` of a granule and channel (41_scalefactors R152). -/
def State.slens (s : State) (gr ch : Fin 2) : Nat × Nat := slen (s.gran gr ch).scalefacCompress.toNat

/-- What `SCF.M1` does once it has its place in the sequence (41_scalefactors R152 to R154). -/
def scfM1Body (gr ch : Fin 2) (s : State) : Res Unit :=
  let g := s.gran gr ch
  let w := s.slens gr ch
  if g.isMixed then (forEach (range 0 8) (readLong gr ch w.1) s).andThen fun _ t => scfM1Short gr ch 3 w.1 w.2 t
  else if g.isShort then scfM1Short gr ch 0 w.1 w.2 s
  else scfM1Long gr ch w.1 w.2 s

section
variable {gr ch : Fin 2} {s : State}

theorem exec_scfM1_of_body {t : State} (h : scfM1Body gr ch (s.stage .scfM1 gr ch) = .ok () t) :
    exec (.scfM1 gr ch) s = .next (t.returns (.nat s.bitpos)) := by
  have hop : opScfM1 gr ch s = (scfM1Body gr ch (s.stage .scfM1 gr ch)).andThen fun _ t => .ok s.bitpos t := rfl
  rw [exec_scfM1, execScfM1, hop, h, andThen_ok, runRet_ok]

theorem scfM1Body_long (h : (s.gran gr ch).isShort = false) : scfM1Body gr ch s =
    scfM1Long gr ch (s.slens gr ch).1 (s.slens gr ch).2 s := by
  simp only [scfM1Body, Gran.isMixed, h, Bool.false_and, Bool.false_eq_true, if_false]

theorem scfM1Body_short (h : (s.gran gr ch).isShort = true) (hm : (s.gran gr ch).mixed = false) : scfM1Body gr ch s =
    scfM1Short gr ch 0 (s.slens gr ch).1 (s.slens gr ch).2 s := by
  simp only [scfM1Body, Gran.isMixed, h, hm, Bool.and_false, Bool.false_eq_true, if_false, if_true]

theorem scfM1Body_mixed (h : (s.gran gr ch).isShort = true) (hm : (s.gran gr ch).mixed = true) : scfM1Body gr ch s =
    (forEach (range 0 8) (readLong gr ch (s.slens gr ch).1) s).andThen fun _ t =>
      scfM1Short gr ch 3 (s.slens gr ch).1 (s.slens gr ch).2 t := by
  simp only [scfM1Body, Gran.isMixed, h, hm, Bool.and_true, if_true]

end

/-- The value of long band `b` after the long form: its field, or the value of granule 0 (R152, R155). -/
def longValue (s : State) (gr ch : Fin 2) (b : Nat) : BitVec 4 :=
  if copied s gr ch b then s.scfLong 0 ch b else fieldAt s (longWidths s gr ch) b

theorem longWidths_length (s : State) (gr ch : Fin 2) : (longWidths s gr ch).length = 21 := by
  simp only [longWidths, List.length_map, List.length_range]

theorem longWidths_getD (s : State) (gr ch : Fin 2) {b : Nat} (hb : b < 21) : (longWidths s gr ch).getD b 0 =
    if copied s gr ch b then 0 else if b < 11 then (s.slens gr ch).1 else (s.slens gr ch).2 := by
  rw [List.getD_eq_getElem _ _ (by rwa [longWidths_length])]
  simp only [longWidths, State.slens, List.getElem_map, List.getElem_range]

/-- The bands of one group: all read, or all copied. -/
theorem scfGroup_longAfter {gr ch : Fin 2} {s : State} {k b0 b1 w : Nat} (hfits : Fits s (longWidths s gr ch).sum) (hb : b0 ≤ b1)
    (hb1 : b1 ≤ 21) (hgroup : ∀ b, b0 ≤ b → b < b1 → scfsiGroup b = k)
    (hw : ∀ b, b0 ≤ b → b < b1 → (if b < 11 then (s.slens gr ch).1 else (s.slens gr ch).2) = w) :
    scfGroup gr ch k b0 b1 w (longAfter gr ch (longValue s gr ch) (longWidths s gr ch) s b0) =
      .ok () (longAfter gr ch (longValue s gr ch) (longWidths s gr ch) s b1) := by
  have hcopied : ∀ b, b0 ≤ b → b < b1 → copied s gr ch b = (gr = 1 && s.scfsi ch k) := fun b h h' => by
    rw [copied, hgroup b h h']
  rw [scfGroup, show State.scfsi (longAfter _ _ _ _ _ _) ch k = s.scfsi ch k from rfl]
  by_cases hread : gr = 0 ∨ s.scfsi ch k = false
  · have hnot : (gr = 1 && s.scfsi ch k) = false := by
      obtain rfl | hflag := hread
      · rfl
      · rw [hflag, Bool.and_false]
    rw [if_pos hread]
    refine forEach_range hb fun b h h' => readLong_longAfter hfits (by omega) ?_ ?_
    · rw [longWidths_getD s gr ch (by omega), hcopied b h h', hnot, if_neg Bool.false_ne_true, hw b h h']
    · rw [longValue, hcopied b h h', hnot, if_neg Bool.false_ne_true]
  · obtain ⟨hgr, hflag⟩ := not_or.1 hread
    obtain rfl : gr = 1 := by omega
    have hcopy : (decide ((1 : Fin 2) = 1) && s.scfsi ch k) = true := by simpa using hflag
    rw [if_neg hread]
    refine forEach_range hb fun b h h' => copyLong_longAfter (by omega) ?_ ?_
    · rw [longWidths_getD s 1 ch (by omega), hcopied b h h', hcopy, if_pos rfl]
    · rw [longValue, hcopied b h h', hcopy, if_pos rfl]

theorem scfM1Long_longAfter {gr ch : Fin 2} {s : State} (hfits : Fits s (longWidths s gr ch).sum) :
    scfM1Long gr ch (s.slens gr ch).1 (s.slens gr ch).2 s =
      .ok () (longAfter gr ch (longValue s gr ch) (longWidths s gr ch) s 21) := by
  have h0 := scfGroup_longAfter (k := 0) (b0 := 0) (b1 := 6) hfits (by decide) (by decide)
    (by grind [scfsiGroup]) fun b _ hb => if_pos (by omega)
  have h1 := scfGroup_longAfter (k := 1) (b0 := 6) (b1 := 11) hfits (by decide) (by decide)
    (by grind [scfsiGroup]) fun b _ hb => if_pos (by omega)
  have h2 := scfGroup_longAfter (k := 2) (b0 := 11) (b1 := 16) hfits (by decide) (by decide)
    (by grind [scfsiGroup]) fun b hb _ => if_neg (by omega)
  have h3 := scfGroup_longAfter (k := 3) (b0 := 16) (b1 := 21) hfits (by decide) (by decide)
    (by grind [scfsiGroup]) fun b hb _ => if_neg (by omega)
  rw [longAfter_zero] at h0
  rw [scfM1Long, h0, andThen_ok, h1, andThen_ok, h2, andThen_ok, h3]

/-- Settles O21: the four band groups in order (`scfM1Long_longAfter`). -/
theorem scaleFactorsLong : Obligations.ScaleFactorsLong := by
  intro gr ch s hlong hfits
  have hread := (scfM1Body_long (s := s.stage .scfM1 gr ch) hlong).trans (scfM1Long_longAfter (s := s.stage .scfM1 gr ch) hfits)
  refine ⟨_, exec_scfM1_of_body hread, ?_, fun b hb => ?_, fun gr' ch' b h => ?_⟩
  · rw [longAfter_all (longWidths_length _ _ _).le]
    rfl
  · exact longAfter_scfLong_inside (ws := longWidths s gr ch) hb (by decide)
  · exact longAfter_scfLong_outside (ws := longWidths s gr ch) h

theorem flatMap_replicate_three_length {ι : Type} (l : List ι) (f : ι → Nat) :
    (l.flatMap fun x => List.replicate 3 (f x)).length = 3 * l.length := by
  simp only [List.length_flatMap, List.length_replicate, List.map_const', List.sum_replicate, smul_eq_mul, Nat.mul_comm]

theorem flatMap_replicate_three_getD {ι : Type} (l : List ι) (f : ι → Nat) {i k : Nat} (hi : i < l.length) (hk : k < 3) :
    (l.flatMap fun x => List.replicate 3 (f x)).getD (3 * i + k) 0 = f l[i] := by
  induction l generalizing i with
  | nil => exact absurd hi (Nat.not_lt_zero i)
  | cons x l ih =>
    rw [List.flatMap_cons]
    cases i with
    | zero =>
      rw [List.getD_append _ _ _ _ (by rw [List.length_replicate]; omega), List.getD_eq_getElem _ _ (by rw [List.length_replicate]; omega),
        List.getElem_replicate, List.getElem_cons_zero]
    | succ i =>
      rw [List.getD_append_right _ _ _ _ (by rw [List.length_replicate]; omega), List.length_replicate,
        show 3 * (i + 1) + k - 3 = 3 * i + k by omega, ih (Nat.lt_of_succ_lt_succ hi), List.getElem_cons_succ]

theorem shortWidths_length (w : Nat × Nat) (b0 : Nat) : (shortWidths w b0).length = 3 * (12 - b0) := by
  rw [shortWidths, flatMap_replicate_three_length, List.length_range']

/-- The width of window `win` of short band `b`. -/
theorem shortWidths_getD (w : Nat × Nat) {b0 b win : Nat} (hb0 : b0 ≤ b) (hb : b < 12) (hwin : win < 3) :
    (shortWidths w b0).getD (3 * (b - b0) + win) 0 = if b < 6 then w.1 else w.2 := by
  rw [shortWidths, flatMap_replicate_three_getD _ _ (by rw [List.length_range']; omega) hwin, List.getElem_range', Nat.one_mul,
    Nat.add_sub_cancel' hb0]

theorem scfM1Short_shortAfter {gr ch : Fin 2} {s : State} {w : Nat × Nat} {b0 : Nat} (hfits : Fits s (shortWidths w b0).sum)
    (hb0 : b0 ≤ 12) : scfM1Short gr ch b0 w.1 w.2 s =
      .ok () (shortAfter gr ch (3 * b0) (shortWidths w b0) s (3 * (12 - b0))) := by
  have hloop := forEach_range (f := fun b => readShort gr ch (if b < 6 then w.1 else w.2) b)
    (S := fun b => shortAfter gr ch (3 * b0) (shortWidths w b0) s (3 * (b - b0))) hb0 fun b h h' => by
      have hnext : 3 * (b + 1 - b0) = 3 * (b - b0) + 3 := by omega
      rw [hnext]
      exact readShort_shortAfter hfits (by omega) (by omega) fun win hwin => (shortWidths_getD w h h' hwin).symm
  simp only [Nat.sub_self, Nat.mul_zero, shortAfter_zero] at hloop
  exact hloop

/-- Settles O22: twelve bands of three windows (`scfM1Short_shortAfter`). -/
theorem scaleFactorsShort : Obligations.ScaleFactorsShort := by
  intro gr ch s hshort hpure ws hfits
  have hread := (scfM1Body_short (s := s.stage .scfM1 gr ch) hshort hpure).trans (scfM1Short_shortAfter (b0 := 0) hfits (by decide))
  refine ⟨_, exec_scfM1_of_body hread, ?_, fun b win hb hwin => ?_, fun gr' ch' k h => ?_⟩
  · rw [shortAfter_all (shortWidths_length _ _).le]
    rfl
  · have hcell := shortAfter_cell_inside (gr := gr) (ch := ch) (lo := 3 * 0) (ws := ws) (s := s.stage .scfM1 gr ch)
      (n := 36) (k := 3 * b + win) (by omega) (by decide)
    rw [Nat.mul_zero, Nat.zero_add] at hcell
    exact hcell
  · exact shortAfter_cell_outside (.inr h)

/-- The widths of the mixed form's fields (R154). -/
def mixedWidths (w : Nat × Nat) : List Nat := List.replicate 8 w.1 ++ shortWidths w 3

theorem sum_take_mixedWidths (w : Nat × Nat) : ((mixedWidths w).take 8).sum = (List.replicate 8 w.1).sum := by
  rw [mixedWidths, List.take_left' List.length_replicate]

theorem mixedWidths_sum (w : Nat × Nat) : (mixedWidths w).sum = ((mixedWidths w).take 8).sum + (shortWidths w 3).sum := by
  rw [sum_take_mixedWidths, mixedWidths, List.sum_append]

/-- The state after the long bands of the mixed form. -/
def mixedLong (gr ch : Fin 2) (w : Nat × Nat) (s : State) : State := longAfter gr ch (fieldAt s (mixedWidths w)) (mixedWidths w) s 8

/-- The short bands' fields go on where those of the long bands end. -/
theorem fieldAt_mixedLong (gr ch : Fin 2) (w : Nat × Nat) (s : State) (k : Nat) :
    fieldAt (mixedLong gr ch w s) (shortWidths w 3) k = fieldAt s (mixedWidths w) (8 + k) := by
  have hpos : (mixedLong gr ch w s).bitpos = s.bitpos + (List.replicate 8 w.1).sum :=
    congrArg (s.bitpos + ·) (sum_take_mixedWidths w)
  have hfield := fieldNat_append_right (s := s) (t := mixedLong gr ch w s) (shortWidths w 3) k rfl hpos
  rw [List.length_replicate] at hfield
  rw [fieldAt_eq, fieldAt_eq, mixedWidths, hfield]

theorem scfM1Mixed_shortAfter {gr ch : Fin 2} {s : State} {w : Nat × Nat} (hfits : Fits s (mixedWidths w).sum) :
    ((forEach (range 0 8) (readLong gr ch w.1) s).andThen fun _ t => scfM1Short gr ch 3 w.1 w.2 t) =
      .ok () (shortAfter gr ch 9 (shortWidths w 3) (mixedLong gr ch w s) 27) := by
  have hwidth : ∀ b, b < 8 → w.1 = (mixedWidths w).getD b 0 := fun b hb => by
    rw [mixedWidths, List.getD_append _ _ _ _ (by rwa [List.length_replicate]), List.getD_replicate _ hb]
  have hlong : forEach (range 0 8) (readLong gr ch w.1) s = .ok () (mixedLong gr ch w s) := by
    have hloop := forEach_range (f := readLong gr ch w.1) (S := longAfter gr ch (fieldAt s (mixedWidths w)) (mixedWidths w) s)
      (a := 0) (b := 8) (by decide) fun b _ hb => readLong_longAfter hfits (by omega) (hwidth b hb) rfl
    rwa [longAfter_zero] at hloop
  have hsplit : Fits s (((mixedWidths w).take 8).sum + (shortWidths w 3).sum) := by rwa [← mixedWidths_sum]
  have hrest : Fits (mixedLong gr ch w s) (shortWidths w 3).sum := fits_rest hsplit rfl rfl
  rw [hlong, andThen_ok, scfM1Short_shortAfter hrest (by decide)]

/-- Settles O23: eight long bands, then the short bands from 3 on, whose fields go on where the long ones end. -/
theorem scaleFactorsMixed : Obligations.ScaleFactorsMixed := by
  intro gr ch s hshort hmixed w ws hfits
  have hread := (scfM1Body_mixed (s := s.stage .scfM1 gr ch) hshort hmixed).trans (scfM1Mixed_shortAfter (w := w) hfits)
  refine ⟨_, exec_scfM1_of_body hread, ?_, fun b hb => ?_, fun b win h hb hwin => ?_, fun gr' ch' b h => ?_, fun gr' ch' k h => ?_⟩
  · rw [shortAfter_all (shortWidths_length w 3).le, show ws = mixedWidths w from rfl, mixedWidths_sum, ← Nat.add_assoc]
    rfl
  · exact longAfter_scfLong_inside (ws := ws) hb (by decide)
  · have hcell := shortAfter_cell_inside (gr := gr) (ch := ch) (lo := 9) (ws := shortWidths w 3)
      (s := mixedLong gr ch w (s.stage .scfM1 gr ch)) (n := 27) (k := 3 * (b - 3) + win) (by omega) (by decide)
    rw [fieldAt_mixedLong, show 9 + (3 * (b - 3) + win) = 3 * b + win by omega] at hcell
    exact hcell
  · exact longAfter_scfLong_outside (ws := ws) h
  · exact shortAfter_cell_outside h

/-! ### `SCF.M2` -/

/-- The numbers in a run of fields that starts at the cursor. -/
def fieldNats (s : State) (ws : List Nat) : List Nat := (List.range ws.length).map (fieldNat s ws)

theorem fieldNats_length (s : State) (ws : List Nat) : (fieldNats s ws).length = ws.length := by
  rw [fieldNats, List.length_map, List.length_range]

theorem fieldNats_getD (s : State) (ws : List Nat) {k : Nat} (h : k < ws.length) : (fieldNats s ws).getD k 0 = fieldNat s ws k := by
  rw [List.getD_eq_getElem _ _ (by rwa [fieldNats_length])]
  simp only [fieldNats, List.getElem_map, List.getElem_range]

theorem fieldNats_append {s t : State} (ws vs : List Nat) (hmd : t.md = s.md) (hpos : t.bitpos = s.bitpos + ws.sum) :
    fieldNats s (ws ++ vs) = fieldNats s ws ++ fieldNats t vs := by
  have hleft : (List.range ws.length).map (fieldNat s (ws ++ vs)) = fieldNats s ws :=
    List.map_congr_left fun k hk => fieldNat_append_left vs (List.mem_range.1 hk)
  have hright : (List.range vs.length).map (fieldNat s (ws ++ vs) ∘ (ws.length + ·)) = fieldNats t vs :=
    List.map_congr_left fun k _ => fieldNat_append_right vs k hmd hpos
  rw [fieldNats, List.length_append, List.range_add, List.map_append, List.map_map, hleft, hright]

theorem readFields_fieldNats {w count : Nat} {s : State} (h : Fits s (List.replicate count w).sum) :
    readFields w count s = .ok (fieldNats s (List.replicate count w)) { s with bitpos := s.bitpos + (List.replicate count w).sum } := by
  have hsum : (List.replicate count w).sum = count * w := by rw [List.sum_replicate, smul_eq_mul]
  have hvalue : ∀ k, k < count → fieldNat s (List.replicate count w) k = seqField s.md (s.bitpos + k * w) w := fun k hk => by
    rw [fieldNat, List.take_replicate, Nat.min_eq_left hk.le, List.sum_replicate, smul_eq_mul, List.getD_replicate _ hk]
  rw [hsum] at h ⊢
  rw [readFields_of_fits h, fieldNats, List.length_replicate, List.map_congr_left fun k hk => hvalue k (List.mem_range.1 hk)]

/-- The widths of the fields of some partitions (R156). -/
def partWidths (n : Nat) (e : Nslen2) (parts : List Nat) : List Nat :=
  parts.flatMap fun i => List.replicate (scfPart n e.d i) (e.slen.getD i 0)

theorem readPartitions_fieldNats {n : Nat} {e : Nslen2} {parts : List Nat} {s : State} (h : Fits s (partWidths n e parts).sum) :
    readPartitions n e parts s =
      .ok (fieldNats s (partWidths n e parts)) { s with bitpos := s.bitpos + (partWidths n e parts).sum } := by
  induction parts generalizing s with
  | nil => rfl
  | cons i rest ih =>
    have hcons : partWidths n e (i :: rest) = List.replicate (scfPart n e.d i) (e.slen.getD i 0) ++ partWidths n e rest :=
      List.flatMap_cons
    rw [hcons] at h ⊢
    generalize hfirst : List.replicate (scfPart n e.d i) (e.slen.getD i 0) = ws at h ⊢
    rw [List.sum_append] at h
    have hrest : Fits { s with bitpos := s.bitpos + ws.sum } (partWidths n e rest).sum := fits_rest h rfl rfl
    rw [readPartitions, readFields_fieldNats (hfirst ▸ fits_of_le h (Nat.le_add_right _ _)), andThen_ok, hfirst, ih hrest, andThen_ok,
      fieldNats_append (s := s) (t := { s with bitpos := s.bitpos + ws.sum }) ws (partWidths n e rest) rfl rfl, List.sum_append,
      Nat.add_assoc]

/-- The entry of `TAB.NSLEN2` a channel's `SCALEFAC_COMPRESS` selects (R156). -/
def State.nslens (s : State) (ch : Fin 2) : Nslen2 := nslen2 (s.gran 0 ch).scalefacCompress.toNat

/-- The state in which `SCF.M2` begins to read: its place taken, `PREFLAG` the table's (R156). -/
def lsfStart (ch : Fin 2) (s : State) : State :=
  { s.setGran 0 ch { s.gran 0 ch with preflag := (s.nslens ch).preflag } with
    seq := ⟨.scfM2, 0, ch⟩ }

/-- The state once the list is read. -/
def lsfRead (ch : Fin 2) (n : Nat) (s : State) : State :=
  { lsfStart ch s with bitpos := s.bitpos + (lsfWidths n (s.nslens ch)).sum }

theorem opScfM2_eq (ch : Fin 2) (s : State) : opScfM2 ch s =
    (readPartitions (scfClass (s.gran 0 ch)) (s.nslens ch) [0, 1, 2, 3] (lsfStart ch s)).andThen
      fun list t => (distribute ch (list ++ List.replicate (2 * scfClass (s.gran 0 ch) + 1) 0) t).andThen
        fun _ t => .ok s.bitpos t := rfl

theorem readList_lsfStart {ch : Fin 2} {n : Nat} {s : State}
    (hfits : Fits s (lsfWidths n (s.nslens ch)).sum) :
    readPartitions n (s.nslens ch) [0, 1, 2, 3] (lsfStart ch s) =
      .ok (fieldNats s (lsfWidths n (s.nslens ch))) (lsfRead ch n s) :=
  readPartitions_fieldNats (s := lsfStart ch s) hfits

/-- The list of R156 with the zeros of R157. -/
def lsfList (ch : Fin 2) (n : Nat) (s : State) : List Nat :=
  fieldNats s (lsfWidths n (s.nslens ch)) ++ List.replicate (2 * n + 1) 0

theorem exec_scfM2_of_fits {ch : Fin 2} {n : Nat} {s : State} (hn : scfClass (s.gran 0 ch) = n)
    (hfits : Fits s (lsfWidths n (s.nslens ch)).sum) :
    exec (.scfM2 ch) s =
      runRet .nat ((distribute ch (lsfList ch n s) (lsfRead ch n s)).andThen fun _ t => .ok s.bitpos t) := by
  rw [exec_scfM2, execScfM2, opScfM2_eq, hn, readList_lsfStart hfits, andThen_ok, lsfList]

theorem nslen2_d_lt (c : Nat) : (nslen2 c).d < 3 := by
  unfold nslen2
  split_ifs
  · exact (by decide : 0 < 3)
  · exact (by decide : 1 < 3)
  · exact (by decide : 2 < 3)

/-- How many fields an LSF list has, by its class (R156). -/
def lsfCount (n : Nat) : Nat := [21, 36, 33].getD n 0

theorem scfPart_sum : ∀ n, n < 3 → ∀ d, d < 3 →
    scfPart n d 0 + (scfPart n d 1 + (scfPart n d 2 + scfPart n d 3)) = lsfCount n := by decide

theorem lsfWidths_length {n : Nat} (hn : n < 3) (s : State) (ch : Fin 2) : (lsfWidths n (s.nslens ch)).length = lsfCount n := by
  rw [← scfPart_sum n hn _ (nslen2_d_lt (s.gran 0 ch).scalefacCompress.toNat)]
  simp only [lsfWidths, State.nslens, List.length_flatMap, List.length_replicate, List.map_cons, List.map_nil, List.sum_cons, List.sum_nil,
    Nat.add_zero]

theorem lsfList_length {n : Nat} (hn : n < 3) (ch : Fin 2) (s : State) :
    (lsfList ch n s).length = lsfCount n + (2 * n + 1) := by
  rw [lsfList, List.length_append, fieldNats_length, lsfWidths_length hn, List.length_replicate]

theorem lsfList_field {n k : Nat} (hn : n < 3) (hk : k < lsfCount n) (ch : Fin 2) (s : State) :
    BitVec.ofNat 4 ((lsfList ch n s).getD k 0) = fieldAt s (lsfWidths n (s.nslens ch)) k := by
  rw [← lsfWidths_length hn s ch] at hk
  rw [lsfList, List.getD_append _ _ _ _ (by rwa [fieldNats_length]), fieldNats_getD _ _ hk, fieldAt_eq]

theorem lsfList_zero {n k : Nat} (hn : n < 3) (hk : lsfCount n ≤ k) (ch : Fin 2) (s : State) :
    (lsfList ch n s).getD k 0 = 0 := by
  rw [lsfList, List.getD_append_right _ _ _ _ (by rwa [fieldNats_length, lsfWidths_length hn])]
  by_cases h : k - (fieldNats s (lsfWidths n (s.nslens ch))).length < 2 * n + 1
  · exact List.getD_replicate _ h
  · exact List.getD_eq_default _ _ (by rw [List.length_replicate]; omega)

/-- `SCF_L[0][ch]` taken from a list of 22 (R157). -/
def listToLong (ch : Fin 2) (list : List Nat) (s : State) : State :=
  { s with scfL := s.scfL.set 0 ((s.scfL.get 0).set ch (.tab 22 fun b => BitVec.ofNat 4 (list.getD b 0))) }

/-- `SCF_S[0][ch]` taken from a list of 39 (R157). -/
def listToShort (ch : Fin 2) (list : List Nat) (s : State) : State :=
  { s with scfS := s.scfS.set 0 ((s.scfS.get 0).set ch (.tab 39 fun k => BitVec.ofNat 4 (list.getD k 0))) }

section
variable {ch : Fin 2} {list : List Nat} {s : State}

theorem distribute_long (h : list.length = 22) : distribute ch list s = .ok () (listToLong ch list s) := if_pos h

theorem distribute_short (h : list.length = 39) : distribute ch list s = .ok () (listToShort ch list s) := by
  rw [distribute, if_neg (by omega), if_pos (by omega), listToShort]

theorem distribute_raises (h : list.length ≠ 22) (h' : list.length < 39) : distribute ch list s = .raised .scfCount s := by
  rw [distribute, if_neg h, if_neg (by omega)]

theorem listToLong_scfLong {b : Nat} (hb : b < 22) : (listToLong ch list s).scfLong 0 ch b = BitVec.ofNat 4 (list.getD b 0) := by
  rw [State.scfLong, listToLong, Two.get_get_set_set, if_pos ⟨rfl, rfl⟩, Bank.get_tab _ _ hb]

theorem listToLong_scfLong_other {gr' ch' : Fin 2} (b : Nat) (h : ¬(gr' = 0 ∧ ch' = ch)) :
    (listToLong ch list s).scfLong gr' ch' b = s.scfLong gr' ch' b := by
  rw [State.scfLong, listToLong, Two.get_get_set_set, if_neg h, State.scfLong]

theorem listToShort_scfShort {b win : Nat} (h : 3 * b + win < 39) :
    (listToShort ch list s).scfShort 0 ch b win = BitVec.ofNat 4 (list.getD (3 * b + win) 0) := by
  rw [State.scfShort, listToShort, Two.get_get_set_set, if_pos ⟨rfl, rfl⟩, Bank.get_tab _ _ h]

theorem listToShort_cell_other {gr' ch' : Fin 2} (k : Nat) (h : ¬(gr' = 0 ∧ ch' = ch)) :
    (((listToShort ch list s).scfS.get gr').get ch').get k 0 = ((s.scfS.get gr').get ch').get k 0 := by
  rw [listToShort, Two.get_get_set_set, if_neg h]

end

/-- Settles O24: the list read (`exec_scfM2_of_fits`) has 22, 39 or 38 elements, by which `distribute` chooses the row, or none. -/
theorem scaleFactorsLsf : Obligations.ScaleFactorsLsf := by
  intro ch s g e pos after
  refine ⟨fun hblock hfits => ?_, fun hblock hpure hfits => ?_, fun hblock hmixed hfits => ?_⟩
  · have hclass : scfClass g = 0 := if_neg hblock
    have hlen : (lsfList ch 0 s).length = 22 := lsfList_length (by decide) ch s
    rw [exec_scfM2_of_fits hclass hfits, distribute_long hlen]
    refine ⟨_, rfl, rfl, fun b hb => ?_, ?_, fun gr' ch' b h => listToLong_scfLong_other b h⟩
    · exact (listToLong_scfLong (by omega)).trans (lsfList_field (by decide) hb ch s)
    · exact (listToLong_scfLong (by decide)).trans (congrArg (BitVec.ofNat 4) (lsfList_zero (by decide) (by decide) ch s))
  · have hclass : scfClass g = 1 := by rw [scfClass, if_pos hblock, hpure, if_neg Bool.false_ne_true]
    have hlen : (lsfList ch 1 s).length = 39 := lsfList_length (by decide) ch s
    rw [exec_scfM2_of_fits hclass hfits, distribute_short hlen]
    refine ⟨_, rfl, rfl, fun b win hb hwin => ?_, fun win hwin => ?_, fun gr' ch' k h => listToShort_cell_other k h⟩
    · have hk : 3 * b + win < 36 := by omega
      exact (listToShort_scfShort (by omega)).trans (lsfList_field (by decide) hk ch s)
    · have hk : 36 ≤ 3 * 12 + win := by omega
      exact (listToShort_scfShort (by omega)).trans (congrArg (BitVec.ofNat 4) (lsfList_zero (by decide) hk ch s))
  · have hclass : scfClass g = 2 := by rw [scfClass, if_pos hblock, hmixed, if_pos rfl]
    have hlen : (lsfList ch 2 s).length = 38 := lsfList_length (by decide) ch s
    rw [exec_scfM2_of_fits hclass hfits, distribute_raises (by omega) (by omega)]
    exact ⟨_, rfl, takeException_faulted (by decide) [] (lsfRead ch 2 s)⟩

end Sys2Proof.Machine
end

section
/-! One pair, one quadruple (42_huffman R167 to R171, R177): tables without a codebook (O26), `HUF.PAIR` (O27), `HUF.QUAD` (O29). -/

namespace Sys2Proof.Machine

open Sys2Proof.Claims

theorem BitsAt.of_holds {s : State} {w : List Bool} (h : Holds s w) : BitsAt s w :=
  ⟨h.1.imp_left List.length_eq_zero_iff.1, fun k hk => (bitAt_eq_seqBit _ _).trans (h.2 k hk)⟩

/-- Bits stand at the cursor of every state with this cursor and this `MD`. -/
theorem BitsAt.congr {s t : State} {w : List Bool} (h : BitsAt s w) (hmd : t.md = s.md) (hpos : t.bitpos = s.bitpos) : BitsAt t w := by
  unfold BitsAt at *
  rwa [hmd, hpos]

/-! ### The tables without a codebook -/

theorem exec_huffPairInstr (t : BitVec 5) (s : State) : exec (huffPairInstr t) s = exec (.hufPair t) s := by
  obtain ⟨k⟩ := t
  fin_cases k <;> rfl

theorem opHufPair_zero (s : State) : opHufPair 0 s = .ok (0, 0) s := rfl

theorem opHufPair_reserved {t : Nat} (h : reservedTable t = true) (s : State) : opHufPair t s = .raised .huffTableReserved s := by
  have h0 : t ≠ 0 := by
    rintro rfl
    exact absurd h (by decide)
  rw [opHufPair, if_neg h0, if_pos h]

theorem exec_hufPair_reserved {t : BitVec 5} (h : reservedTable t.toNat = true) (s : State) :
    exec (.hufPair t) s = .next (takeException .huffTableReserved [] s) := by
  rw [exec_hufPair, execHufPair, opHufPair_reserved h, runRet_raised]

/-- Settles O26: table 0 reads nothing (`opHufPair_zero`), tables 4 and 14 raise before they read (`exec_hufPair_reserved`), and a codebook
row is its table's `HUF.PAIR` (`exec_huffPairInstr`). -/
theorem pairTablesWithoutCodebook : Obligations.PairTablesWithoutCodebook := by
  refine fun s => ⟨rfl, rfl, fun i hi => ⟨?_, takeException_faulted (by decide) [] s⟩⟩
  obtain rfl | rfl | rfl | rfl := hi
  · exact exec_hufPair_reserved (by decide) s
  · exact exec_hufPair_reserved (by decide) s
  · exact (exec_huffPairInstr 4#5 s).trans (exec_hufPair_reserved (by decide) s)
  · exact (exec_huffPairInstr 14#5 s).trans (exec_hufPair_reserved (by decide) s)

/-! ### A pair -/

/-- An element after its codeword: its escape, then its sign (42_huffman R168). -/
def readElement (t x0 : Nat) (s : State) : Res Int := (readEscape t x0 s).andThen readSign

/-- The bits of an element after its codeword (30_encoding R102). -/
def elementBits (t x0 lin : Nat) (neg : Bool) : List Bool := escapeBits t x0 lin ++ signBits (pairMagnitude t x0 lin) neg

/-- A table with a codebook: a codeword, then its two elements. -/
theorem opHufPair_codebook {t : Nat} (h0 : t ≠ 0) (hr : reservedTable t = false) (s : State) :
    opHufPair t s = (readBook (pairBook t) s).andThen fun v s =>
      (readElement t v.1 s).andThen fun x s => (readElement t v.2 s).andThen fun y s => .ok (x, y) s := by
  rw [opHufPair, if_neg h0, if_neg (Bool.eq_false_iff.1 hr)]
  simp only [readElement, andThen_assoc]

theorem pairCode_bits {t : Nat} (h0 : t ≠ 0) (c : PairCode) : c.bits t =
    (pairBook t).codeword (c.x0, c.y0) ++ (elementBits t c.x0 c.linX c.negX ++ elementBits t c.y0 c.linY c.negY) := by
  simp only [PairCode.bits, pairItemBits, if_neg h0, elementBits, List.append_assoc]

theorem wfPairElem_iff {t x0 lin : Nat} {neg : Bool} : wfPairElem t x0 lin neg = true ↔
    (x0 < pairDim t ∨ t = 0 ∧ x0 = 0) ∧ (if 0 < linbits t ∧ x0 = 15 then lin < 2 ^ linbits t else lin = 0) ∧
      (neg = true → 0 < pairMagnitude t x0 lin) := by
  unfold wfPairElem
  by_cases h : 0 < linbits t ∧ x0 = 15 <;> simp [h, and_assoc, imp_iff_not_or]

/-- An element whose escape and sign bits stand at the cursor. -/
theorem readElement_ok {t x0 lin : Nat} {neg : Bool} (h : wfPairElem t x0 lin neg = true) {s : State}
    (hb : BitsAt s (elementBits t x0 lin neg)) : readElement t x0 s =
      .ok (signed (pairMagnitude t x0 lin) neg) { s with bitpos := s.bitpos + (elementBits t x0 lin neg).length } := by
  obtain ⟨-, hlin, hneg⟩ := wfPairElem_iff.1 h
  obtain ⟨hescape, hsign⟩ := hb.append
  rw [readElement, readEscape_ok hlin hescape, andThen_ok, readSign_ok hneg hsign, elementBits, List.length_append, Nat.add_assoc]

theorem pairDim_reserved {t : Nat} (h : reservedTable t = true) : pairDim t = 0 := by
  simp only [reservedTable, Bool.or_eq_true, beq_iff_eq] at h
  obtain rfl | rfl := h <;> rfl

/-- Table 0 codes `(0, 0)` alone, in no bit. -/
theorem pairCode_zero {c : PairCode} (h : c.ok 0 = true) : c.bits 0 = [] ∧ c.x 0 = 0 ∧ c.y 0 = 0 := by
  obtain ⟨x0, y0, linX, linY, negX, negY⟩ := c
  obtain ⟨hx, hy⟩ := Bool.and_eq_true_iff.1 h
  obtain ⟨hx0, -, hnx⟩ := wfPairElem_iff.1 hx
  obtain ⟨hy0, -, hny⟩ := wfPairElem_iff.1 hy
  obtain rfl : x0 = 0 := hx0.elim (fun k => absurd k (Nat.not_lt_zero _)) fun k => k.2
  obtain rfl : y0 = 0 := hy0.elim (fun k => absurd k (Nat.not_lt_zero _)) fun k => k.2
  cases negX
  · cases negY
    · exact ⟨rfl, rfl, rfl⟩
    · exact absurd (hny rfl) (Nat.not_lt_zero _)
  · exact absurd (hnx rfl) (Nat.not_lt_zero _)

/-- A pair that table `t` codes and whose bits stand at the cursor. -/
theorem opHufPair_ok {t : Nat} (ht : t < 32) {c : PairCode} (hc : c.ok t = true) {s : State} (hb : BitsAt s (c.bits t)) :
    opHufPair t s = .ok (c.x t, c.y t) { s with bitpos := s.bitpos + (c.bits t).length } := by
  by_cases h0 : t = 0
  · subst h0
    obtain ⟨hbits, hx, hy⟩ := pairCode_zero hc
    rw [hbits, hx, hy, opHufPair_zero]
    rfl
  · obtain ⟨hx, hy⟩ := Bool.and_eq_true_iff.1 hc
    have hx0 : c.x0 < pairDim t := (wfPairElem_iff.1 hx).1.resolve_right fun k => h0 k.1
    have hy0 : c.y0 < pairDim t := (wfPairElem_iff.1 hy).1.resolve_right fun k => h0 k.1
    have hr : reservedTable t = false := Bool.eq_false_iff.2 fun k => absurd (pairDim_reserved k) (by omega)
    rw [pairCode_bits h0] at hb ⊢
    obtain ⟨hword, hrest⟩ := hb.append
    obtain ⟨hbx, hby⟩ := hrest.append
    rw [opHufPair_codebook h0 hr, readBook_pair ht h0 hr hx0 hy0 hword, andThen_ok, readElement_ok hx hbx, andThen_ok,
      readElement_ok hy hby, andThen_ok]
    simp only [List.length_append, Nat.add_assoc]
    rfl

/-- Settles O27: the pair's parts in order (`opHufPair_ok`); a codebook row is its table's `HUF.PAIR` (`exec_huffPairInstr`). -/
theorem pairDecodes : Obligations.PairDecodes := by
  intro t c s hc hbits
  have hpair : exec (.hufPair t) s =
      .next { s with bitpos := s.bitpos + (c.bits t.toNat).length, ret := .ints [c.x t.toNat, c.y t.toNat] } := by
    rw [exec_hufPair, execHufPair, opHufPair_ok t.isLt hc (.of_holds hbits), runRet_ok]
    rfl
  exact ⟨hpair, (exec_huffPairInstr t s).trans hpair⟩

/-! ### A quadruple -/

/-- The values of a quadruple (30_encoding R104(d)). -/
def quadOf (c : QuadCode) : Quad :=
  ⟨quadElem c.value c.neg 3, quadElem c.value c.neg 2, quadElem c.value c.neg 1, quadElem c.value c.neg 0⟩

/-- The sign bit of element `i`, present only for a non-zero element (30_encoding R103). -/
def quadSignBit (c : QuadCode) (i : Nat) : List Bool := signBits (c.value.getLsbD i).toNat (c.neg.getLsbD i)

theorem quadSignBits_eq (c : QuadCode) : quadSignBits c.value c.neg =
    quadSignBit c 3 ++ (quadSignBit c 2 ++ (quadSignBit c 1 ++ quadSignBit c 0)) := by
  obtain ⟨v, n⟩ := c
  revert v n
  decide

theorem wfSigns_neg : ∀ (v neg : BitVec 4), wfSigns v neg = true → ∀ i, i < 4 → neg.getLsbD i = true → 0 < (v.getLsbD i).toNat := by
  decide

theorem signed_quadElem (v neg : BitVec 4) (i : Nat) (h : neg.getLsbD i = true → 0 < (v.getLsbD i).toNat) :
    signed (v.getLsbD i).toNat (neg.getLsbD i) = quadElem v neg i := by
  unfold quadElem
  cases hv : v.getLsbD i <;> cases hn : neg.getLsbD i
  · rfl
  · exact absurd (hv ▸ h hn) (by decide)
  · rfl
  · rfl

/-- The sign of element `i`, whose bit, if it has one, stands at the cursor. -/
theorem readSign_quad {c : QuadCode} (hc : wfSigns c.value c.neg = true) {i : Nat} (hi : i < 4) {s : State}
    (hb : BitsAt s (quadSignBit c i)) : readSign (c.value.getLsbD i).toNat s =
      .ok (quadElem c.value c.neg i) { s with bitpos := s.bitpos + (quadSignBit c i).length } := by
  have hneg := wfSigns_neg c.value c.neg hc i hi
  rw [readSign_ok hneg hb, signed_quadElem _ _ _ hneg]
  rfl

/-- A quadruple whose codeword and sign bits stand at the cursor. -/
theorem opHufQuad_ok {q : Bool} {c : QuadCode} (hc : wfSigns c.value c.neg = true) {s : State} (hb : BitsAt s (c.bits q)) :
    opHufQuad q s = .ok (quadOf c) { s with bitpos := s.bitpos + (c.bits q).length } := by
  have hbits : c.bits q = (quadBook q).codeword c.value ++
      (quadSignBit c 3 ++ (quadSignBit c 2 ++ (quadSignBit c 1 ++ quadSignBit c 0))) := by
    rw [QuadCode.bits, quadItemBits, quadSignBits_eq]
  rw [hbits] at hb ⊢
  obtain ⟨hword, hb⟩ := hb.append
  obtain ⟨h3, hb⟩ := hb.append
  obtain ⟨h2, hb⟩ := hb.append
  obtain ⟨h1, h0⟩ := hb.append
  rw [opHufQuad, readBook_quad q c.value hword, andThen_ok, readSign_quad hc (by decide) h3, andThen_ok,
    readSign_quad hc (by decide) h2, andThen_ok, readSign_quad hc (by decide) h1, andThen_ok, readSign_quad hc (by decide) h0, andThen_ok]
  simp only [List.length_append, Nat.add_assoc]
  rfl

/-- Settles O29: the codeword, then a sign for each element in order (`opHufQuad_ok`). -/
theorem quadDecodes : Obligations.QuadDecodes := by
  intro q c s hc hbits
  rw [exec_hufQuad, execHufQuad, opHufQuad_ok hc (.of_holds hbits), runRet_ok]
  rfl

end Sys2Proof.Machine
end

section
/-! Big values and count1 (42_huffman R172 to R176): `HUF.BIG` (O31), `HUF.CNT1` (O32), `HUF.GRANULE` (O33). Both loops fill consecutive lines
of one row, so each completes in the state `filled` with its values. -/

namespace Sys2Proof.Machine

open Sys2Proof.Claims

/-! ### Consecutive lines -/

theorem State.line_setLine (s : State) {gr ch gr' ch' : Fin 2} {i j : Nat} (v : F32) :
    (s.setLine gr ch i v).line gr' ch' j = if gr' = gr ∧ ch' = ch ∧ j = i ∧ i < 576 then v else s.line gr' ch' j := by
  rw [State.line, State.setLine, State.lines_setLines]
  by_cases hrow : gr' = gr ∧ ch' = ch
  · obtain ⟨rfl, rfl⟩ := hrow
    rw [if_pos ⟨rfl, rfl⟩]
    by_cases hj : j = i
    · subst hj
      by_cases hlt : j < 576
      · rw [if_pos ⟨rfl, rfl, rfl, hlt⟩, Bank.get_set_same _ _ _ hlt]
      · rw [if_neg fun h => hlt h.2.2.2, Bank.get_of_le _ _ (Nat.le_of_not_lt hlt), State.line_of_le _ _ _ (Nat.le_of_not_lt hlt)]
    · rw [if_neg fun h => hj h.2.2.1, Bank.get_set_other _ _ _ (Ne.symm hj), State.line]
  · rw [if_neg hrow, if_neg fun h => hrow ⟨h.1, h.2.1⟩, State.line]

theorem State.lines_setLine_other (s : State) {gr ch gr' ch' : Fin 2} (i : Nat) (v : F32) (h : ¬(gr' = gr ∧ ch' = ch)) :
    (s.setLine gr ch i v).lines gr' ch' = s.lines gr' ch' := State.lines_setLines_other s _ h

/-- Lines `p`, `p + 1`, ... take the values `vs`. -/
def State.writeInts (gr ch : Fin 2) : (p : Nat) → (vs : List Int) → State → State
  | _, [], s => s
  | p, v :: vs, s => State.writeInts gr ch (p + 1) vs (s.setLine gr ch p (fOfInt v))

section
variable {gr ch : Fin 2} {s : State} {p : Nat} {vs : List Int}

theorem writeInts_eq : s.writeInts gr ch p vs = { s with xr := (s.writeInts gr ch p vs).xr } := by
  induction vs generalizing s p with
  | nil => rfl
  | cons v vs ih => exact ih

theorem writeInts_append (us : List Int) :
    s.writeInts gr ch p (us ++ vs) = (s.writeInts gr ch p us).writeInts gr ch (p + us.length) vs := by
  induction us generalizing s p with
  | nil => rfl
  | cons u us ih =>
    rw [List.length_cons, Nat.add_comm us.length, ← Nat.add_assoc]
    exact ih

theorem writeInts_setBitpos (pos : Nat) : (s.setBitpos pos).writeInts gr ch p vs = (s.writeInts gr ch p vs).setBitpos pos := by
  induction vs generalizing s p with
  | nil => rfl
  | cons v vs ih => exact ih (s := s.setLine gr ch p (fOfInt v))

theorem writeInts_line_outside {i : Nat} (h : i < p ∨ p + vs.length ≤ i) :
    (s.writeInts gr ch p vs).line gr ch i = s.line gr ch i := by
  induction vs generalizing s p with
  | nil => rfl
  | cons v vs ih =>
    rw [List.length_cons] at h
    rw [State.writeInts, ih (by omega), State.line_setLine, if_neg (by omega)]

theorem writeInts_line_inside {k : Nat} (hk : k < vs.length) (h : p + k < 576) :
    (s.writeInts gr ch p vs).line gr ch (p + k) = fOfInt (vs.getD k 0) := by
  induction vs generalizing s p k with
  | nil => exact absurd hk (Nat.not_lt_zero _)
  | cons v vs ih =>
    cases k with
    | zero => rw [State.writeInts, writeInts_line_outside (by omega), State.line_setLine, if_pos ⟨rfl, rfl, rfl, h⟩, List.getD_cons_zero]
    | succ k =>
      rw [List.length_cons] at hk
      rw [State.writeInts, List.getD_cons_succ, ← ih (s := s.setLine gr ch p (fOfInt v)) (p := p + 1) (by omega) (by omega),
        Nat.add_right_comm]
      rfl

theorem writeInts_lines_other {gr' ch' : Fin 2} (h : ¬(gr' = gr ∧ ch' = ch)) :
    (s.writeInts gr ch p vs).lines gr' ch' = s.lines gr' ch' := by
  induction vs generalizing s p with
  | nil => rfl
  | cons v vs ih => rw [State.writeInts, ih, State.lines_setLine_other _ _ _ h]

end

/-- The state with the cursor at `pos` and the lines from `p` on holding `vs`. -/
def State.filled (gr ch : Fin 2) (p : Nat) (vs : List Int) (pos : Nat) (s : State) : State :=
  (s.setBitpos pos).writeInts gr ch p vs

section
variable {gr ch : Fin 2} {s : State} {p pos : Nat} {vs : List Int}

theorem filled_eq : s.filled gr ch p vs pos = { s with bitpos := pos, xr := (s.filled gr ch p vs pos).xr } :=
  writeInts_eq (s := s.setBitpos pos)

theorem filled_md : (s.filled gr ch p vs pos).md = s.md := by rw [filled_eq]

theorem filled_bitpos : (s.filled gr ch p vs pos).bitpos = pos := by rw [filled_eq]

theorem filled_gran (gr' ch' : Fin 2) : (s.filled gr ch p vs pos).gran gr' ch' = s.gran gr' ch'  := by
  rw [filled_eq]
  rfl

theorem BitsAt.filled {w : List Bool} (h : BitsAt { s with bitpos := pos } w) : BitsAt (s.filled gr ch p vs pos) w :=
  h.congr filled_md filled_bitpos

theorem filled_filled {us : List Int} {p' pos' : Nat} (h : p' = p + us.length) :
    (s.filled gr ch p us pos').filled gr ch p' vs pos = s.filled gr ch p (us ++ vs) pos := by
  rw [h, State.filled, State.filled, State.filled, ← writeInts_setBitpos, writeInts_append]
  rfl

theorem filled_line_outside {i : Nat} (h : i < p ∨ p + vs.length ≤ i) : (s.filled gr ch p vs pos).line gr ch i = s.line gr ch i :=
  writeInts_line_outside h

theorem filled_line_inside {i : Nat} (hp : p ≤ i) (hi : i < p + vs.length) (h : i < 576) :
    (s.filled gr ch p vs pos).line gr ch i = fOfInt (vs.getD (i - p) 0) := by
  obtain ⟨k, rfl⟩ := Nat.exists_eq_add_of_le hp
  rw [Nat.add_sub_cancel_left]
  exact writeInts_line_inside (by omega) h

theorem filled_otherLines : OtherLines gr ch s (s.filled gr ch p vs pos) := fun _ _ h => writeInts_lines_other h

end

/-! ### `HUF.BIG` -/

theorem opHufBig_lineRange {gr ch : Fin 2} {s : State} (h : 288 < (s.gran gr ch).bigValues.toNat) :
    opHufBig gr ch s = .raised .lineRange s := if_pos (by omega)

theorem opHufBig_regionRange {gr ch : Fin 2} {s : State} (hmax : (s.gran gr ch).bigValues.toNat ≤ 288)
    (h : regions s (s.gran gr ch) = none) : opHufBig gr ch s = .raised .regionRange s := by
  rw [opHufBig, if_neg (by omega), h]

theorem opHufBig_pairs {gr ch : Fin 2} {s : State} {r : Nat × Nat} (hmax : (s.gran gr ch).bigValues.toNat ≤ 288)
    (h : regions s (s.gran gr ch) = some r) : opHufBig gr ch s =
      forEach (List.range' 0 (s.gran gr ch).bigValues.toNat) (bigPair gr ch (s.gran gr ch) r) s := by
  rw [opHufBig, if_neg (by omega), h, List.range_eq_range']

theorem regions_none {s : State} {g : Gran} (h : ¬regionsOk g) : regions s g = none := by
  obtain ⟨hshort, hindex⟩ := not_or.1 h
  rw [regions, if_neg hshort]
  exact if_pos (by omega)

/-- Where the region indexes are in range, the regions give every pair its table (42_huffman R172). -/
theorem regions_some {g : Gran} (h : regionsOk g) (s : State) : ∃ r, regions s g = some r ∧ tableAt s g = regionTable g r := by
  have htable (r : Nat × Nat) (p : Nat) : regionTable g r p =
      if p < r.1 then g.table0.toNat else if p < r.2 then g.table1.toNat else g.table2.toNat := by
    unfold regionTable
    by_cases h1 : p < r.1
    · rw [if_pos h1, if_pos h1]
      rfl
    · by_cases h2 : p < r.2
      · rw [if_neg h1, if_neg h1, if_pos h2, if_pos h2]
        rfl
      · rw [if_neg h1, if_neg h1, if_neg h2, if_neg h2]
        rfl
  by_cases hshort : g.isShort = true
  · refine ⟨(36, 576), if_pos hshort, funext fun p => ?_⟩
    simp only [tableAt, htable, if_pos hshort]
  · have hindex := h.resolve_left hshort
    refine ⟨(edge s.longRow (g.region0.toNat + 1), edge s.longRow (g.region0.toNat + g.region1.toNat + 2)), ?_, funext fun p => ?_⟩
    · rw [regions, if_neg hshort]
      exact if_neg (by omega)
    · simp only [tableAt, htable, if_neg hshort]
      rfl

theorem regionTable_lt (g : Gran) (r : Nat × Nat) (p : Nat) : regionTable g r p < 32 := BitVec.isLt _

theorem pairsValues_length (table : Nat → Nat) (p : Nat) (cs : List PairCode) : (pairsValues table p cs).length = 2 * cs.length := by
  induction cs generalizing p with
  | nil => rfl
  | cons c cs ih => rw [pairsValues, List.length_cons, List.length_cons, ih, List.length_cons, Nat.mul_succ]

section
variable {gr ch : Fin 2} {g : Gran} {r : Nat × Nat}

/-- One pair whose bits stand at the cursor. -/
theorem bigPair_ok {k : Nat} {c : PairCode} (hc : c.ok (regionTable g r (2 * k)) = true) {s : State}
    (hb : BitsAt s (c.bits (regionTable g r (2 * k)))) : bigPair gr ch g r k s =
      .ok () (s.filled gr ch (2 * k) [c.x (regionTable g r (2 * k)), c.y (regionTable g r (2 * k))]
        (s.bitpos + (c.bits (regionTable g r (2 * k))).length)) := by
  rw [bigPair, opHufPair_ok (regionTable_lt g r _) hc hb, andThen_ok]
  rfl

/-- The pairs from number `k` on, one after another at the cursor. -/
theorem bigPairs_ok {k : Nat} {cs : List PairCode} {s : State} (hok : pairsOk (regionTable g r) (2 * k) cs)
    (hb : BitsAt s (pairsBits (regionTable g r) (2 * k) cs)) : forEach (List.range' k cs.length) (bigPair gr ch g r) s =
      .ok () (s.filled gr ch (2 * k) (pairsValues (regionTable g r) (2 * k) cs)
        (s.bitpos + (pairsBits (regionTable g r) (2 * k) cs).length)) := by
  induction cs generalizing k s with
  | nil => rfl
  | cons c cs ih =>
    obtain ⟨hc, hcs⟩ := hok
    obtain ⟨hfirst, hrest⟩ := BitsAt.append hb
    rw [List.length_cons, List.range'_succ, forEach_cons, bigPair_ok hc hfirst, andThen_ok,
      ih (k := k + 1) hcs hrest.filled, filled_bitpos, pairsBits, List.length_append, ← Nat.add_assoc]
    exact congrArg (Res.ok ()) (filled_filled rfl)

end

/-- `HUF.BIG` where the pairs stand at the cursor, each coded with its region's table. -/
theorem opHufBig_ok {gr ch : Fin 2} {s : State} {cs : List PairCode} (hlen : cs.length = (s.gran gr ch).bigValues.toNat)
    (hmax : cs.length ≤ 288) (hregions : regionsOk (s.gran gr ch)) (hok : pairsOk (tableAt s (s.gran gr ch)) 0 cs)
    (hb : BitsAt s (pairsBits (tableAt s (s.gran gr ch)) 0 cs)) : opHufBig gr ch s =
      .ok () (s.filled gr ch 0 (pairsValues (tableAt s (s.gran gr ch)) 0 cs)
        (s.bitpos + (pairsBits (tableAt s (s.gran gr ch)) 0 cs).length)) := by
  obtain ⟨r, hr, htable⟩ := regions_some hregions s
  rw [htable] at hok hb ⊢
  rw [opHufBig_pairs (hlen ▸ hmax) hr, ← hlen]
  exact bigPairs_ok (k := 0) hok hb

/-- Settles O31: the checks in order; then the pairs fill the lines (`opHufBig_ok`). -/
theorem bigValues : Obligations.BigValues := by
  refine fun gr ch s => ⟨fun hmax => ⟨_, ?_, takeException_faulted (by decide) [] s⟩,
    fun hmax hregions => ⟨_, ?_, takeException_faulted (by decide) [] s⟩, fun cs hlen hmax hregions hok hbits => ?_⟩
  · rw [exec_hufBig, execHufBig, opHufBig_lineRange hmax, run_raised]
  · rw [exec_hufBig, execHufBig, opHufBig_regionRange hmax (regions_none hregions), run_raised]
  · have hvalues := pairsValues_length (tableAt s (s.gran gr ch)) 0 cs
    have hrun := congrArg run (opHufBig_ok hlen hmax hregions hok (.of_holds hbits))
    refine ⟨_, exec_hufBig.trans hrun, filled_eq, fun i hi => ?_, fun i hi => filled_line_outside (.inr ?_), filled_otherLines⟩
    · exact filled_line_inside (Nat.zero_le i) (by omega) (by omega)
    · omega

/-! ### `HUF.CNT1` -/

/-- The line `COUNT1` takes: the loop's last, less the quadruple that ran past part 3 (42_huffman R175). -/
def cnt1Count (endPos p pos : Nat) : Nat := if endPos < pos then p - 4 else p

/-- What `HUF.CNT1` leaves where lines `p` on took `vs` and the cursor then stood at `pos`. -/
def State.finished (gr ch : Fin 2) (endPos p : Nat) (vs : List Int) (pos : Nat) (s : State) : State :=
  cnt1Finish gr ch endPos (p + vs.length) (s.filled gr ch p vs pos)

section
variable {gr ch : Fin 2} {endPos p pos : Nat} {vs : List Int} {s : State}

theorem cnt1Count_le : cnt1Count endPos p pos ≤ p := by
  unfold cnt1Count
  split <;> omega

theorem finished_eq : s.finished gr ch endPos p vs pos =
    { s with
      bitpos := endPos
      xr := (s.finished gr ch endPos p vs pos).xr
      si := (s.finished gr ch endPos p vs pos).si } := by
  rw [State.finished, filled_eq]
  rfl

theorem finished_si : (s.finished gr ch endPos p vs pos).si = { s.si with gran := (s.finished gr ch endPos p vs pos).si.gran } := by
  rw [State.finished, filled_eq]
  rfl

theorem finished_gran : (s.finished gr ch endPos p vs pos).gran gr ch =
    { s.gran gr ch with count1 := BitVec.ofNat 10 (cnt1Count endPos (p + vs.length) pos) } := by
  refine (State.gran_setGran_same _ gr ch _).trans ?_
  rw [filled_gran, filled_bitpos]
  rfl

theorem finished_otherGrans : OtherGrans gr ch s (s.finished gr ch endPos p vs pos) := fun gr' ch' h =>
  (State.gran_setGran _ gr ch gr' ch' _).trans ((if_neg h).trans (filled_gran gr' ch'))

theorem finished_otherLines : OtherLines gr ch s (s.finished gr ch endPos p vs pos) := fun gr' ch' h =>
  (State.lines_setLines_other _ _ h).trans (filled_otherLines gr' ch' h)

theorem finished_line {i : Nat} (h : i < 576) : (s.finished gr ch endPos p vs pos).line gr ch i =
    if i < cnt1Count endPos (p + vs.length) pos then (s.filled gr ch p vs pos).line gr ch i else 0#32 := by
  refine (State.line_setLines_tab _ gr ch _ h).trans ?_
  rw [filled_bitpos]
  rfl

theorem finished_line_below {i : Nat} (hi : i < cnt1Count endPos (p + vs.length) pos) (h : i < 576) :
    (s.finished gr ch endPos p vs pos).line gr ch i = if i < p then s.line gr ch i else fOfInt (vs.getD (i - p) 0) := by
  have hle := cnt1Count_le (endPos := endPos) (p := p + vs.length) (pos := pos)
  rw [finished_line h, if_pos hi]
  by_cases hp : i < p
  · rw [if_pos hp, filled_line_outside (.inl hp)]
  · rw [if_neg hp, filled_line_inside (Nat.le_of_not_lt hp) (by omega) h]

/-- The zero tail (42_huffman R176). -/
theorem finished_line_from {i : Nat} (hi : cnt1Count endPos (p + vs.length) pos ≤ i) :
    (s.finished gr ch endPos p vs pos).line gr ch i = 0#32 := by
  by_cases h : i < 576
  · rw [finished_line h, if_neg (Nat.not_lt.2 hi)]
  · exact State.line_of_le _ _ _ (Nat.le_of_not_lt h)

end

theorem quadsBits_cons (q : Bool) (c : QuadCode) (cs : List QuadCode) : quadsBits q (c :: cs) = c.bits q ++ quadsBits q cs := rfl

theorem quadsValues_cons (c : QuadCode) (cs : List QuadCode) : quadsValues (c :: cs) = quadElems c.value c.neg ++ quadsValues cs := rfl

theorem quadElems_length (v neg : BitVec 4) : (quadElems v neg).length = 4 := rfl

theorem quadsValues_length (cs : List QuadCode) : (quadsValues cs).length = 4 * cs.length := by
  induction cs with
  | nil => rfl
  | cons c cs ih => rw [quadsValues_cons, List.length_append, quadElems_length, ih, List.length_cons, Nat.mul_succ, Nat.add_comm]

/-- The four elements of a quadruple in line order. -/
def Quad.elems (e : Quad) : List Int := [e.v, e.w, e.x, e.y]

theorem quadOf_elems (c : QuadCode) : (quadOf c).elems = quadElems c.value c.neg := rfl

theorem setQuad_setBitpos (gr ch : Fin 2) (p pos : Nat) (e : Quad) (s : State) :
    setQuad gr ch p e (s.setBitpos pos) = s.filled gr ch p e.elems pos := rfl

/-- The loop where the quadruples it reads stand at the cursor; its fuel is enough for the lines from `p` on. -/
theorem cnt1Loop_ok {gr ch : Fin 2} {q : Bool} {endPos fuel p : Nat} {s : State} {cs : List QuadCode} (hfuel : 576 ≤ 4 * fuel + p)
    (hloop : loopReads q endPos p s.bitpos cs) (hok : quadsOk cs) (hb : BitsAt s (quadsBits q cs)) :
    cnt1Loop gr ch q endPos fuel p s =
      .ok (p + (quadsValues cs).length) (s.filled gr ch p (quadsValues cs) (s.bitpos + (quadsBits q cs).length)) := by
  induction cs generalizing fuel p s with
  | nil =>
    cases fuel with
    | zero => rfl
    | succ fuel => exact if_neg hloop
  | cons c cs ih =>
    obtain ⟨hp, hpos, hloop⟩ := hloop
    obtain ⟨hc, hcs⟩ := List.forall_mem_cons.1 hok
    rw [quadsBits_cons] at hb ⊢
    obtain ⟨hfirst, hrest⟩ := hb.append
    cases fuel with
    | zero => omega
    | succ fuel =>
      rw [cnt1Loop, if_pos ⟨hp, hpos⟩, opHufQuad_ok hc hfirst, andThen_ok, ← State.setBitpos, setQuad_setBitpos, quadOf_elems,
        ih (by omega) (by rwa [filled_bitpos]) hcs hrest.filled, filled_bitpos, filled_filled (p' := p + 4) (us := quadElems c.value c.neg) rfl, quadsValues_cons, List.length_append,
        List.length_append, quadElems_length, Nat.add_assoc, Nat.add_assoc]

/-- `HUF.CNT1` where the quadruples its loop reads stand at the cursor. -/
theorem opHufCnt1_ok {gr ch : Fin 2} {start p : Nat} {s : State} {g : Gran} {cs : List QuadCode} (hg : s.gran gr ch = g)
    (hp : 2 * g.bigValues.toNat = p) (hloop : loopReads g.count1Table (start + g.part23Length.toNat) p s.bitpos cs) (hok : quadsOk cs)
    (hb : BitsAt s (quadsBits g.count1Table cs)) : opHufCnt1 gr ch start s =
      .ok () (s.finished gr ch (start + g.part23Length.toNat) p (quadsValues cs) (s.bitpos + (quadsBits g.count1Table cs).length)) := by
  subst hg hp
  rw [opHufCnt1, cnt1Loop_ok (by omega) hloop hok hb, andThen_ok]
  rfl

/-- Settles O32: the loop fills its lines (`opHufCnt1_ok`), which `finished` discards, zeroes and repositions. -/
theorem count1Region : Obligations.Count1Region := by
  intro gr ch start s cs g endPos p0 bits hloop hok hbits p count
  have hcount : count = cnt1Count endPos (p0 + (quadsValues cs).length) (s.bitpos + bits.length) := by
    rw [quadsValues_length]
    rfl
  rw [hcount]
  exact ⟨_, exec_hufCnt1.trans (congrArg run (opHufCnt1_ok rfl rfl hloop hok (.of_holds hbits))), finished_eq, finished_si, finished_gran,
    fun _ => finished_line_below, fun _ => finished_line_from, finished_otherLines, finished_otherGrans⟩

/-! ### `HUF.GRANULE` -/

section
variable {gr ch : Fin 2} {start : Nat} {s : State}

/-- `HUF.GRANULE` without a part 2 and 3: no bit is read (42_huffman R166). -/
theorem opHufGranule_empty (h : (s.gran gr ch).part23Length = 0) : opHufGranule gr ch start s =
    .ok () (((s.stage .hufGranule gr ch).setLines gr ch (zeros 576)).setGran gr ch { s.gran gr ch with count1 := 0 }) := if_pos h

theorem opHufGranule_coded (h : (s.gran gr ch).part23Length ≠ 0) : opHufGranule gr ch start s =
    (opHufBig gr ch (s.stage .hufGranule gr ch)).andThen fun _ t => opHufCnt1 gr ch start t := if_neg h

theorem line_setLines_zeros (i : Nat) : (s.setLines gr ch (zeros 576)).line gr ch i = 0#32 := by
  rw [State.line, State.lines_setLines_same]
  exact Bank.get_tab_const _ _ _

theorem finished_filled {us vs : List Int} {endPos p pos pos' : Nat} (h : p = us.length) :
    (s.filled gr ch 0 us pos').finished gr ch endPos p vs pos = s.finished gr ch endPos 0 (us ++ vs) pos := by
  rw [State.finished, State.finished, filled_filled (by omega), List.length_append, Nat.zero_add, h]

end

/-- The pairs and then the quadruples where they stand at the cursor. -/
theorem opHufBig_opHufCnt1_ok {gr ch : Fin 2} {start : Nat} {s : State} {cs : List PairCode} {qs : List QuadCode}
    (hlen : cs.length = (s.gran gr ch).bigValues.toNat) (hmax : cs.length ≤ 288) (hregions : regionsOk (s.gran gr ch))
    (hpairs : pairsOk (tableAt s (s.gran gr ch)) 0 cs) (hquads : quadsOk qs)
    (hloop : loopReads (s.gran gr ch).count1Table (start + (s.gran gr ch).part23Length.toNat) (2 * cs.length)
      (s.bitpos + (pairsBits (tableAt s (s.gran gr ch)) 0 cs).length) qs)
    (hb : BitsAt s (pairsBits (tableAt s (s.gran gr ch)) 0 cs ++ quadsBits (s.gran gr ch).count1Table qs)) :
    ((opHufBig gr ch s).andThen fun _ t => opHufCnt1 gr ch start t) =
      .ok () (s.finished gr ch (start + (s.gran gr ch).part23Length.toNat) 0
        (pairsValues (tableAt s (s.gran gr ch)) 0 cs ++ quadsValues qs)
        (s.bitpos + (pairsBits (tableAt s (s.gran gr ch)) 0 cs ++ quadsBits (s.gran gr ch).count1Table qs).length)) := by
  obtain ⟨hbig, hsmall⟩ := hb.append
  rw [opHufBig_ok hlen hmax hregions hpairs hbig, andThen_ok,
    opHufCnt1_ok (filled_gran gr ch) (congrArg (2 * ·) hlen.symm) (by rwa [filled_bitpos]) hquads hsmall.filled,
    finished_filled (pairsValues_length _ _ _).symm, filled_bitpos, List.length_append, Nat.add_assoc]

/-- Settles O33: the pairs fill the first lines and the quadruples those after them (`opHufBig_opHufCnt1_ok`), in the state `finished`
whose lines begin at 0. -/
theorem granuleDecodes : Obligations.GranuleDecodes := by
  intro gr ch start s g endPos
  refine ⟨fun hempty => ?_, fun hcoded cs qs hlen hmax hregions hpairs hquads => ?_⟩
  · exact ⟨_, exec_hufGranule.trans (congrArg run (opHufGranule_empty hempty)), rfl, rfl, State.gran_setGran_same _ gr ch _,
      line_setLines_zeros (s := s.stage .hufGranule gr ch), fun _ _ => State.lines_setLines_other _ _,
      fun gr' ch' h => (State.gran_setGran _ gr ch gr' ch' _).trans (if_neg h)⟩
  · intro big small hloop hbits values p count
    have hrun := (opHufGranule_coded hcoded).trans (opHufBig_opHufCnt1_ok (s := s.stage .hufGranule gr ch) hlen hmax hregions hpairs
      hquads hloop (.of_holds hbits))
    have hlength : values.length = p := by rw [List.length_append, pairsValues_length, quadsValues_length]
    have hcount : count = cnt1Count endPos (0 + values.length) (s.bitpos + (big ++ small).length) := by
      rw [Nat.zero_add, hlength, cnt1Count]
    rw [hcount]
    refine ⟨_, exec_hufGranule.trans (congrArg run hrun), finished_eq, finished_si, finished_gran, fun i hi => ?_,
      fun _ _ => finished_otherLines (s := s.stage .hufGranule gr ch) _ _,
      fun _ _ => finished_otherGrans (s := s.stage .hufGranule gr ch) _ _⟩
    by_cases hbelow : i < cnt1Count endPos (0 + values.length) (s.bitpos + (big ++ small).length)
    · rw [if_pos hbelow]
      exact finished_line_below hbelow hi
    · rw [if_neg hbelow]
      exact finished_line_from (Nat.le_of_not_lt hbelow)

end Sys2Proof.Machine
end

section
/-! After `HUF.GRANULE` (O34; 42_huffman R176, R179): whatever the bits, what completes has filled the lines with values of magnitude at most
8206. -/

namespace Sys2Proof.Machine

open Sys2Proof.Claims

/-- Values a codebook and its escapes can give (42_huffman R179). -/
def Quantized (vs : List Int) : Prop := ∀ q ∈ vs, q.natAbs ≤ 8206

/-- From `s` to `t`, `n` lines from `p` on took quantized values and the cursor moved; nothing else changed. -/
def Fills (gr ch : Fin 2) (p n : Nat) (s t : State) : Prop :=
  ∃ vs pos, vs.length = n ∧ Quantized vs ∧ t = s.filled gr ch p vs pos

theorem Fills.refl (gr ch : Fin 2) (p : Nat) (s : State) : Fills gr ch p 0 s s := ⟨[], s.bitpos, rfl, nofun, rfl⟩

theorem Fills.trans {gr ch : Fin 2} {p p' m n : Nat} {s t u : State} (h : Fills gr ch p m s t) (k : Fills gr ch p' n t u)
    (hp : p' = p + m) : Fills gr ch p (m + n) s u := by
  obtain ⟨vs, pos, rfl, hvs, rfl⟩ := h
  obtain ⟨us, pos', rfl, hus, rfl⟩ := k
  exact ⟨vs ++ us, pos', List.length_append, fun q hq => (List.mem_append.1 hq).elim (hvs q) (hus q), filled_filled hp⟩

theorem Fills.gran {gr ch : Fin 2} {p n : Nat} {s t : State} (h : Fills gr ch p n s t) (gr' ch' : Fin 2) :
    t.gran gr' ch' = s.gran gr' ch' := by
  obtain ⟨vs, pos, -, -, rfl⟩ := h
  exact filled_gran gr' ch'

/-! ### What a pair or a quadruple can give -/

theorem getBits_lt {n v : Nat} {s t : State} (h : getBits n s = .ok v t) : v < 2 ^ n := by
  by_cases hbits : n = 0 ∨ s.bitpos + n ≤ 8 * s.md.length
  · rw [getBits_ok hbits] at h
    obtain ⟨rfl, -⟩ := Res.ok.inj h
    exact bitsAt_lt _ _ _
  · rw [getBits_overrun hbits] at h
    cases h

theorem Book.mem_of_value {α : Type} {b : Book α} {w : List Bool} {a : α} (h : b.value w = some a) : (w, a) ∈ b := by
  obtain ⟨e, hfind, rfl⟩ := Option.map_eq_some_iff.1 h
  have hw := List.find?_some hfind
  exact beq_iff_eq.1 hw ▸ List.mem_of_find?_eq_some hfind

/-- A codeword read is one of the book's. -/
theorem readCodeword_mem {α : Type} {b : Book α} {fuel : Nat} {v : List Bool} {s t : State} {a : α}
    (h : readCodeword b fuel v s = .ok a t) : ∃ w, (w, a) ∈ b := by
  induction fuel generalizing v s with
  | zero => cases h
  | succ fuel ih =>
    obtain ⟨x, u, -, h⟩ := andThen_eq_ok.1 h
    dsimp only at h
    split at h
    next a' hvalue =>
      obtain ⟨rfl, -⟩ := Res.ok.inj h
      exact ⟨_, Book.mem_of_value hvalue⟩
    next =>
      split at h
      · exact ih h
      · cases h

theorem linbits_le : ∀ t, t < 32 → linbits t ≤ 13 := by decide

theorem signed_natAbs (mag : Nat) (neg : Bool) : (signed mag neg).natAbs = mag := by
  cases neg
  · rfl
  · exact Int.natAbs_neg _

theorem readSign_natAbs_le {mag : Nat} {s t : State} {z : Int} (h : readSign mag s = .ok z t) : z.natAbs ≤ mag := by
  unfold readSign at h
  split at h
  · obtain ⟨v, u, -, h⟩ := andThen_eq_ok.1 h
    obtain ⟨rfl, -⟩ := Res.ok.inj h
    exact (signed_natAbs _ _).le
  · obtain ⟨rfl, -⟩ := Res.ok.inj h
    exact Nat.zero_le _

theorem readEscape_le {t x0 m : Nat} (ht : t < 32) (hx : x0 < 16) {s u : State} (h : readEscape t x0 s = .ok m u) : m ≤ 8206 := by
  unfold readEscape at h
  split at h
  · obtain ⟨v, w, hv, h⟩ := andThen_eq_ok.1 h
    obtain ⟨rfl, -⟩ := Res.ok.inj h
    have hlin : 2 ^ linbits t ≤ 2 ^ 13 := Nat.pow_le_pow_right (by decide) (linbits_le t ht)
    have hlt := getBits_lt hv
    omega
  · obtain ⟨rfl, -⟩ := Res.ok.inj h
    omega

theorem readElement_natAbs_le {t x0 : Nat} (ht : t < 32) (hx : x0 < 16) {s u : State} {z : Int} (h : readElement t x0 s = .ok z u) :
    z.natAbs ≤ 8206 := by
  obtain ⟨m, w, hm, hz⟩ := andThen_eq_ok.1 h
  exact (readSign_natAbs_le hz).trans (readEscape_le ht hx hm)

/-- A pair that completes: quantized values, and only the cursor moved. -/
theorem opHufPair_quantized {t : Nat} (ht : t < 32) {s u : State} {v : Int × Int} (h : opHufPair t s = .ok v u) :
    Quantized [v.1, v.2] ∧ u = s.setBitpos u.bitpos := by
  have hends := opHufPair_ends (P := fun u => u = s.setBitpos u.bitpos) t s fun _ => rfl
  rw [h] at hends
  refine ⟨?_, hends u.bitpos⟩
  by_cases h0 : t = 0
  · subst h0
    obtain ⟨rfl, -⟩ := Res.ok.inj h
    simp [Quantized]
  · cases hr : reservedTable t with
    | true =>
      rw [opHufPair_reserved hr] at h
      cases h
    | false =>
      rw [opHufPair_codebook h0 hr] at h
      obtain ⟨e, s1, he, h⟩ := andThen_eq_ok.1 h
      obtain ⟨x, s2, hx, h⟩ := andThen_eq_ok.1 h
      obtain ⟨y, s3, hy, h⟩ := andThen_eq_ok.1 h
      obtain ⟨rfl, -⟩ := Res.ok.inj h
      obtain ⟨w, hw⟩ := readCodeword_mem he
      obtain ⟨-, hx0, hy0⟩ : w ≠ [] ∧ e.1 < pairDim t ∧ e.2 < pairDim t := legal_nonempty (pairBook_legal ht h0 hr) hw
      have hdim := (pairDim_bounds t ht h0 hr).2
      exact List.forall_mem_cons.2 ⟨readElement_natAbs_le ht (by omega) hx,
        List.forall_mem_singleton.2 (readElement_natAbs_le ht (by omega) hy)⟩

/-- A quadruple that completes, likewise. -/
theorem opHufQuad_quantized {q : Bool} {s u : State} {e : Quad} (h : opHufQuad q s = .ok e u) :
    Quantized e.elems ∧ u = s.setBitpos u.bitpos := by
  have hends := opHufQuad_ends (P := fun u => u = s.setBitpos u.bitpos) q s fun _ => rfl
  rw [h] at hends
  refine ⟨?_, hends u.bitpos⟩
  have hsign {b : Bool} {t t' : State} {z : Int} (hz : readSign b.toNat t = .ok z t') : z.natAbs ≤ 8206 :=
    (readSign_natAbs_le hz).trans (b.toNat_le.trans (by decide))
  obtain ⟨word, s0, -, h⟩ := andThen_eq_ok.1 h
  obtain ⟨v, s1, hv, h⟩ := andThen_eq_ok.1 h
  obtain ⟨w, s2, hw, h⟩ := andThen_eq_ok.1 h
  obtain ⟨x, s3, hx, h⟩ := andThen_eq_ok.1 h
  obtain ⟨y, s4, hy, h⟩ := andThen_eq_ok.1 h
  obtain ⟨rfl, -⟩ := Res.ok.inj h
  simp only [Quantized, Quad.elems, List.forall_mem_cons]
  exact ⟨hsign hv, hsign hw, hsign hx, hsign hy, nofun⟩

/-! ### The two loops -/

theorem bigPair_fills {gr ch : Fin 2} {g : Gran} {r : Nat × Nat} {k : Nat} {s t : State} (h : bigPair gr ch g r k s = .ok () t) :
    Fills gr ch (2 * k) 2 s t := by
  obtain ⟨v, u, hv, h⟩ := andThen_eq_ok.1 h
  obtain ⟨hvalues, hu⟩ := opHufPair_quantized (regionTable_lt g r _) hv
  obtain ⟨-, rfl⟩ := Res.ok.inj h
  exact ⟨[v.1, v.2], u.bitpos, rfl, hvalues, by rw [hu]; rfl⟩

theorem bigPairs_fills {gr ch : Fin 2} {g : Gran} {r : Nat × Nat} {k n : Nat} {s t : State}
    (h : forEach (List.range' k n) (bigPair gr ch g r) s = .ok () t) : Fills gr ch (2 * k) (2 * n) s t := by
  induction n generalizing k s with
  | zero =>
    obtain ⟨-, rfl⟩ := Res.ok.inj h
    exact .refl gr ch _ _
  | succ n ih =>
    rw [List.range'_succ, forEach_cons] at h
    obtain ⟨⟨⟩, u, hfirst, hrest⟩ := andThen_eq_ok.1 h
    rw [Nat.mul_succ, Nat.add_comm]
    exact (bigPair_fills hfirst).trans (ih hrest) rfl

theorem opHufBig_fills {gr ch : Fin 2} {s t : State} (h : opHufBig gr ch s = .ok () t) :
    (s.gran gr ch).bigValues.toNat ≤ 288 ∧ Fills gr ch 0 (2 * (s.gran gr ch).bigValues.toNat) s t := by
  by_cases hmax : (s.gran gr ch).bigValues.toNat ≤ 288
  · refine ⟨hmax, ?_⟩
    cases hr : regions s (s.gran gr ch) with
    | none =>
      rw [opHufBig_regionRange hmax hr] at h
      cases h
    | some r =>
      rw [opHufBig_pairs hmax hr] at h
      exact bigPairs_fills (k := 0) h
  · rw [opHufBig_lineRange (Nat.lt_of_not_le hmax)] at h
    cases h

/-- The loop ends within the lines; it has filled those before the one it gives. -/
theorem cnt1Loop_fills {gr ch : Fin 2} {q : Bool} {endPos fuel p p' : Nat} {s t : State} (hp : p ≤ 576)
    (h : cnt1Loop gr ch q endPos fuel p s = .ok p' t) : p' ≤ 576 ∧ ∃ k, p' = p + 4 * k ∧ Fills gr ch p (4 * k) s t := by
  induction fuel generalizing p s with
  | zero =>
    obtain ⟨rfl, rfl⟩ := Res.ok.inj h
    exact ⟨hp, 0, rfl, .refl gr ch _ _⟩
  | succ fuel ih =>
    unfold cnt1Loop at h
    split at h
    next hgo =>
      obtain ⟨e, u, he, h⟩ := andThen_eq_ok.1 h
      obtain ⟨hvalues, hu⟩ := opHufQuad_quantized he
      have hquad : Fills gr ch p 4 s (setQuad gr ch p e u) := ⟨e.elems, u.bitpos, rfl, hvalues, by rw [hu]; rfl⟩
      obtain ⟨hmax, k, hk, hrest⟩ := ih (by omega) h
      refine ⟨hmax, k + 1, by omega, ?_⟩
      rw [Nat.mul_succ, Nat.add_comm]
      exact hquad.trans hrest rfl
    next =>
      obtain ⟨rfl, rfl⟩ := Res.ok.inj h
      exact ⟨hp, 0, rfl, .refl gr ch _ _⟩

/-- A granule with a part 2 and 3 that completes has filled an even number of lines, which `HUF.CNT1` then finishes. -/
theorem opHufGranule_finished {gr ch : Fin 2} {start : Nat} {s t : State} (hcoded : (s.gran gr ch).part23Length ≠ 0)
    (h : opHufGranule gr ch start s = .ok () t) : ∃ endPos vs pos, vs.length % 2 = 0 ∧ vs.length ≤ 576 ∧ Quantized vs ∧
      t = (s.stage .hufGranule gr ch).finished gr ch endPos 0 vs pos := by
  rw [opHufGranule_coded hcoded] at h
  obtain ⟨⟨⟩, u, hbig, h⟩ := andThen_eq_ok.1 h
  obtain ⟨p, w, hloop, h⟩ := andThen_eq_ok.1 h
  obtain ⟨hmax, hfirst⟩ := opHufBig_fills hbig
  rw [hfirst.gran] at hloop h
  obtain ⟨hp, k, rfl, hrest⟩ := cnt1Loop_fills (by omega) hloop
  obtain ⟨vs, pos, hlen, hvs, rfl⟩ := hfirst.trans hrest (Nat.zero_add _).symm
  obtain ⟨-, rfl⟩ := Res.ok.inj h
  exact ⟨_, vs, pos, by omega, by omega, hvs, by rw [State.finished, Nat.zero_add, hlen]⟩

/-! ### The postcondition -/

/-- A raise leaves `SEQ` idle: an operation that ends elsewhere has completed. -/
theorem run_next_of_seq {r : Res Unit} {t : State} (h : run r = .next t) (hseq : t.seq ≠ .idle) : r = .ok () t := by
  cases r with
  | ok a u => exact congrArg (Res.ok a) (Host.Outcome.next.inj h)
  | raised c u =>
    obtain rfl := Host.Outcome.next.inj h
    exact absurd (takeException_seq c [] u) hseq

theorem Quantized.getD {vs : List Int} (h : Quantized vs) (k : Nat) : (vs.getD k 0).natAbs ≤ 8206 := by
  by_cases hk : k < vs.length
  · rw [List.getD_eq_getElem _ _ hk]
    exact h _ (List.getElem_mem hk)
  · rw [List.getD_eq_default _ _ (Nat.le_of_not_lt hk)]
    decide

theorem cnt1Count_even {endPos p pos : Nat} (h : p % 2 = 0) : cnt1Count endPos p pos % 2 = 0 := by
  unfold cnt1Count
  split <;> omega

/-- Settles O34: without a part 2 and 3 every line is 0; otherwise the state is `finished` on quantized values (`opHufGranule_finished`). -/
theorem granulePostcondition : Obligations.GranulePostcondition := by
  intro gr ch start s t hexec hseq
  have hrun : opHufGranule gr ch start s = .ok () t :=
    run_next_of_seq (exec_hufGranule.symm.trans hexec) (by rw [hseq]; nofun)
  by_cases hcoded : (s.gran gr ch).part23Length = 0
  · rw [opHufGranule_empty hcoded] at hrun
    obtain ⟨-, rfl⟩ := Res.ok.inj hrun
    have hline (i : Nat) := line_setLines_zeros (gr := gr) (ch := ch) (s := s.stage .hufGranule gr ch) i
    rw [State.gran_setGran_same]
    exact ⟨rfl, Nat.zero_le _, fun i _ => hline i, fun i => ⟨0, by decide, hline i⟩⟩
  · obtain ⟨endPos, vs, pos, heven, hmax, hvs, rfl⟩ := opHufGranule_finished hcoded hrun
    have hle := cnt1Count_le (endPos := endPos) (p := 0 + vs.length) (pos := pos)
    have hcount : (BitVec.ofNat 10 (cnt1Count endPos (0 + vs.length) pos)).toNat = cnt1Count endPos (0 + vs.length) pos := by
      rw [BitVec.toNat_ofNat, Nat.mod_eq_of_lt (by omega)]
    rw [finished_gran, hcount]
    refine ⟨cnt1Count_even (by omega), by omega, fun i => finished_line_from, fun i => ?_⟩
    by_cases hi : i < cnt1Count endPos (0 + vs.length) pos
    · exact ⟨_, hvs.getD i, finished_line_below hi (by omega)⟩
    · exact ⟨0, by decide, finished_line_from (Nat.le_of_not_lt hi)⟩

end Sys2Proof.Machine
end

section
/-! Requantizing and reordering (O35 to O39; 43_requantize_reorder R190 to R197): `REQ.L` and `REQ.S` on an integer, the traversal of `REQ`
line by line, the laws of the requantizer, and the permutation of `REORD`. -/

namespace Sys2Proof.Machine

open Sys2Proof.Claims

/-! ### The requantized value of an integer (R191, R192) -/

theorem reqInt_eq_requantized (q e4 : Int) : reqInt q e4 = requantized q e4 := rfl

theorem longExp_eq_longE4 (s : State) (gr ch : Fin 2) (b : Nat) : longExp s gr ch b = longE4 s gr ch b := by
  simp only [longExp, longE4, reqMult]
  cases (s.gran gr ch).preflag <;> simp

theorem shortExp_eq_shortE4 (s : State) (gr ch : Fin 2) (b win : Nat) : shortExp s gr ch b win = shortE4 s gr ch b win := rfl

theorem reqLine_of_int {x : F32} {q : Int} (hq : q.natAbs ≤ 8206) (hx : x = fOfInt q) (e4 : Int) : reqLine x e4 = requantized q e4 := by
  rw [hx, reqLine_fOfInt hq, reqInt_eq_requantized]

/-- `REQ.L` as a step of its own (log 20). -/
theorem exec_reqL_of_int {q : BitVec 16} (hq : q.toInt.natAbs ≤ 8206) (gr ch : Fin 2) (b : Fin 22) (s : State) :
    exec (.reqL gr ch q b) s = .next { s with ret := .vals [requantized q.toInt (longE4 s gr ch b.val)] } := by
  rw [exec_reqL, execReqL, reqLine_of_int hq rfl, longExp_eq_longE4, State.returns]

/-- `REQ.S` as a step of its own (log 20). -/
theorem exec_reqS_of_int {q : BitVec 16} (hq : q.toInt.natAbs ≤ 8206) (gr ch : Fin 2) (b : Fin 13) (win : Fin 3) (s : State) :
    exec (.reqS gr ch q b win) s = .next { s with ret := .vals [requantized q.toInt (shortE4 s gr ch b.val win.val)] } := by
  rw [exec_reqS, execReqS, reqLine_of_int hq rfl, shortExp_eq_shortE4, State.returns]

/-- Settles O35: the line an element function reads is the image of its integer operand, which `reqLine` gives back. -/
theorem requantizeElements : Obligations.RequantizeElements := fun gr ch _ s hq =>
  ⟨fun b => exec_reqL_of_int hq gr ch b s, fun b win => exec_reqS_of_int hq gr ch b win s⟩

/-! ### `REQ` and `REORD` as tables of lines -/

/-- `s` at the stage `op`, with the lines of one granule and channel tabulated anew. -/
def State.retabled (s : State) (op : Opid) (gr ch : Fin 2) (f : Nat → F32) : State := (s.stage op gr ch).setLines gr ch (.tab 576 f)

section
variable {s : State} {op : Opid} {gr ch : Fin 2} {f : Nat → F32}

theorem retabled_eq : s.retabled op gr ch f = { s with seq := ⟨op, gr, ch⟩, xr := (s.retabled op gr ch f).xr } := rfl

theorem retabled_otherLines : OtherLines gr ch s (s.retabled op gr ch f) :=
  fun _ _ h => State.lines_setLines_other (s.stage op gr ch) _ h

theorem retabled_line {i : Nat} (hi : i < 576) : (s.retabled op gr ch f).line gr ch i = f i :=
  State.line_setLines_tab (s.stage op gr ch) gr ch f hi

theorem setLines_lines : s.setLines gr ch (s.lines gr ch) = s := by
  simp only [State.setLines, State.lines, Two.set_get]

/-- A table of the lines as they are. -/
theorem retabled_line_self : s.retabled op gr ch (s.line gr ch) = s.stage op gr ch := by
  rw [State.retabled, show s.line gr ch = fun i => (s.lines gr ch).get i 0#32 from rfl, Bank.tab_get]
  exact setLines_lines (s := s.stage op gr ch)

end

theorem exec_req_retabled (gr ch : Fin 2) (s : State) : exec (.req gr ch) s = .next (s.retabled .req gr ch (reqValue s gr ch)) := rfl

theorem exec_reord_retabled (gr ch : Fin 2) (s : State) :
    exec (.reord gr ch) s = .next (s.retabled .reord gr ch (reordValue s gr ch)) := rfl

/-! ### The form of a line (R193 to R195) -/

section
variable {s : State} {gr ch : Fin 2} {i : Nat}

theorem isMixed_of_isShort {g : Gran} (h : g.isShort = true) : g.isMixed = g.mixed := by rw [Gran.isMixed, h, Bool.true_and]

theorem isMixed_of_not_isShort {g : Gran} (h : g.isShort = false) : g.isMixed = false := by rw [Gran.isMixed, h, Bool.false_and]

theorem reqForm_long (h : (s.gran gr ch).isShort = false) :
    reqForm s gr ch i = if i < (s.gran gr ch).count1.toNat then .long (bandOf s.longRow i) else .untouched := by
  simp [reqForm, isMixed_of_not_isShort h, h]

theorem reqForm_mixedLong (h : (s.gran gr ch).isShort = true) (hm : (s.gran gr ch).mixed = true) (hi : i < 36) :
    reqForm s gr ch i = .long (bandOf s.longRow i) := by
  simp [reqForm, isMixed_of_isShort h, hm, hi]

theorem reqForm_short (h : (s.gran gr ch).isShort = true) (hi : (s.gran gr ch).mixed = true → 36 ≤ i) :
    reqForm s gr ch i = shortForm s (s.gran gr ch) i := by
  cases hm : (s.gran gr ch).mixed with
  | false => simp [reqForm, isMixed_of_isShort h, hm, h]
  | true => simp [reqForm, isMixed_of_isShort h, hm, hi hm]

theorem reqValue_untouched (h : reqForm s gr ch i = .untouched) : reqValue s gr ch i = s.line gr ch i := by rw [reqValue, h]

theorem reqValue_long {b : Nat} {q : Int} (h : reqForm s gr ch i = .long b) (hq : q.natAbs ≤ 8206) (hline : s.line gr ch i = fOfInt q) :
    reqValue s gr ch i = requantized q (longE4 s gr ch b) := by
  rw [reqValue, h, ← longExp_eq_longE4]
  exact reqLine_of_int hq hline _

theorem reqValue_short {b win : Nat} {q : Int} (h : reqForm s gr ch i = .short b win) (hq : q.natAbs ≤ 8206)
    (hline : s.line gr ch i = fOfInt q) : reqValue s gr ch i = requantized q (shortE4 s gr ch b win) := by
  rw [reqValue, h]
  exact reqLine_of_int hq hline _

end

/-- Settles O36: below `COUNT1` the form is the long one of the line's band, from it on the line is untouched. -/
theorem requantizeLong : Obligations.RequantizeLong := by
  intro gr ch s hlong
  refine ⟨_, exec_req_retabled gr ch s, retabled_eq, retabled_otherLines, fun i hi => ?_,
    fun i b q hi hmax hb h1 h2 hq hline => ?_⟩
  · by_cases hmax : i < 576
    · rw [retabled_line hmax, reqValue_untouched ((reqForm_long hlong).trans (if_neg (Nat.not_lt.2 hi)))]
    · rw [State.line_of_le _ _ _ (Nat.le_of_not_lt hmax), State.line_of_le _ _ _ (Nat.le_of_not_lt hmax)]
  · rw [retabled_line hmax]
    refine reqValue_long ?_ hq hline
    rw [reqForm_long hlong, if_pos hi, bandOf_longRow s hb h1 h2]

/-! ### Short blocks (R194, R195) -/

section
variable {s : State} {b win j : Nat} (hb : b < 13) (hwin : win < 3) (hj : j < s.shortRow.getD (b + 1) 0 - s.shortRow.getD b 0)
include hb

/-- In a mixed granule the short bands begin where the long lines end. -/
theorem shortBand_ge_36 (h3 : 3 ≤ b) : 36 ≤ 3 * s.shortRow.getD b 0 := by
  have h36 : 3 * s.shortRow.getD 3 0 = 36 := (sfb_at_36 s.hdr.lsf s.hdr.sfreq).2
  have hle := shortRow_le s h3 (by omega)
  omega

include hwin hj

/-- Line `j` of window `win` of band `b`, its band and window found again. -/
theorem shortForm_window (g : Gran) :
    shortForm s g (3 * s.shortRow.getD b 0 + win * (s.shortRow.getD (b + 1) 0 - s.shortRow.getD b 0) + j) =
      if 3 * s.shortRow.getD b 0 < g.count1.toNat then .short b win else .untouched := by
  obtain ⟨hend, -, -⟩ := shortBand_lines s hb hwin hj
  have hwindow : (3 * s.shortRow.getD b 0 + win * (s.shortRow.getD (b + 1) 0 - s.shortRow.getD b 0) + j - 3 * s.shortRow.getD b 0) /
      (s.shortRow.getD (b + 1) 0 - s.shortRow.getD b 0) = win := by
    rw [Nat.add_assoc, Nat.add_sub_cancel_left, Nat.add_comm, Nat.add_mul_div_right _ _ (by omega), Nat.div_eq_of_lt hj, Nat.zero_add]
  simp only [shortForm, edge, bandOf_shortRow s hb (by omega) hend, hwindow]

end

/-- Settles O37: a line of a short band has the form `shortForm_window` gives, one of lines 0 to 35 of a mixed granule the long form of its band. -/
theorem requantizeShort : Obligations.RequantizeShort := by
  intro gr ch s hshort
  refine ⟨_, exec_req_retabled gr ch s, retabled_eq, retabled_otherLines, fun b win j q hb hwin hmixed hj => ?_,
    fun i b q hm hi hb h1 h2 hq hline => ?_⟩
  · obtain ⟨hend, -, hmax⟩ := shortBand_lines s hb hwin hj
    intro i
    have hform : reqForm s gr ch i =
        if 3 * s.shortRow.getD b 0 < (s.gran gr ch).count1.toNat then .short b win else .untouched := by
      rw [reqForm_short hshort, shortForm_window hb hwin hj]
      intro hm
      have := shortBand_ge_36 (s := s) hb (hmixed hm)
      omega
    rw [retabled_line (by omega)]
    exact ⟨fun hbelow hq hline => reqValue_short (hform.trans (if_pos hbelow)) hq hline,
      fun hfrom => reqValue_untouched (hform.trans (if_neg (Nat.not_lt.2 hfrom)))⟩
  · rw [retabled_line (by omega)]
    refine reqValue_long ?_ hq hline
    rw [reqForm_mixedLong hshort hm hi, bandOf_longRow s hb h1 h2]

/-! ### Reordering (R197) -/

theorem reordValue_of_not_isShort {s : State} {gr ch : Fin 2} (h : (s.gran gr ch).isShort = false) (k : Nat) :
    reordValue s gr ch k = s.line gr ch k := by
  simp [reordValue, h]

/-- Place `3 * j + win` of a short band: line `j` of window `win`, where the band is reordered. -/
theorem reordValue_short {s : State} {gr ch : Fin 2} {b win j : Nat} (h : (s.gran gr ch).isShort = true) (hb : b < 13) (hwin : win < 3)
    (hj : j < s.shortRow.getD (b + 1) 0 - s.shortRow.getD b 0) :
    reordValue s gr ch (3 * s.shortRow.getD b 0 + 3 * j + win) =
      if 3 * s.shortRow.getD b 0 < (s.gran gr ch).count1.toNat ∧ ((s.gran gr ch).mixed = true → 3 ≤ b) then
        s.line gr ch (3 * s.shortRow.getD b 0 + win * (s.shortRow.getD (b + 1) 0 - s.shortRow.getD b 0) + j)
      else s.line gr ch (3 * s.shortRow.getD b 0 + 3 * j + win) := by
  obtain ⟨-, hend, -⟩ := shortBand_lines s hb hwin hj
  have hplace : (3 * s.shortRow.getD b 0 + 3 * j + win - 3 * s.shortRow.getD b 0) % 3 = win ∧
      (3 * s.shortRow.getD b 0 + 3 * j + win - 3 * s.shortRow.getD b 0) / 3 = j := by omega
  simp only [reordValue, edge, bandOf_shortRow s hb (by omega) hend, hplace]
  refine if_congr ?_ rfl rfl
  cases (s.gran gr ch).mixed <;> simp [h, and_comm]

/-- Settles O39: a granule that is not short is tabulated from its own lines, a short one place by place (`reordValue_short`). -/
theorem reorder : Obligations.Reorder := by
  intro gr ch s
  refine ⟨fun hlong => ?_, fun hshort => ⟨_, exec_reord_retabled gr ch s, retabled_eq, retabled_otherLines,
    fun b win j hb hwin hj => ?_⟩⟩
  · rw [exec_reord_retabled, funext (reordValue_of_not_isShort hlong), retabled_line_self, State.stage]
  · obtain ⟨-, hend, hmax⟩ := shortBand_lines s hb hwin hj
    exact (retabled_line (by omega)).trans (reordValue_short hshort hb hwin hj)

/-! ### The requantizer is odd (R196) -/

theorem fNeg_fNeg (x : F32) : fNeg (fNeg x) = x := by rw [fNeg, fNeg, BitVec.xor_assoc, BitVec.xor_self, BitVec.xor_zero]

theorem opposite_requantized (q e4 : Int) : opposite q (requantized q e4) (requantized (-q) e4) := by
  refine ⟨fun h0 => ?_, fun h0 => ?_⟩
  · subst h0
    exact ⟨rfl, rfl⟩
  · simp only [requantized, Int.natAbs_neg, neg_eq_zero, if_neg h0]
    rcases lt_or_gt_of_ne h0 with hneg | hpos
    · rw [if_pos (by omega), if_neg (by omega), fNeg_fNeg]
    · rw [if_neg (by omega), if_pos hpos]

theorem opposite_fOfInt (q : Int) : opposite q (fOfInt q) (fOfInt (-q)) := by
  refine ⟨fun h0 => ?_, fOfInt_neg⟩
  subst h0
  exact ⟨rfl, rfl⟩

theorem toInt_neg_of_quant {q : BitVec 16} (hq : q.toInt.natAbs ≤ 8206) : (-q).toInt = -q.toInt := by
  rw [BitVec.toInt_neg, Int.bmod_eq_of_le (by omega) (by omega)]

/-- What `REQ` makes of the value `x` of a line of form `f`; the registers it reads besides are not lines. -/
def formValue (s : State) (gr ch : Fin 2) (f : ReqForm) (x : F32) : F32 :=
  match f with
  | .untouched => x
  | .long b => reqLine x (longExp s gr ch b)
  | .short b win => reqLine x (shortExp s gr ch b win)

theorem reqValue_eq_formValue (s : State) (gr ch : Fin 2) (i : Nat) (xr : Two (Two Lines)) :
    reqValue { s with xr := xr } gr ch i = formValue s gr ch (reqForm s gr ch i) (({ s with xr := xr } : State).line gr ch i) := rfl

theorem reqLine_zero (e4 : Int) : reqLine 0#32 e4 = 0#32 := reqLine_of_int (q := 0) (by decide) rfl e4

theorem formValue_zero (s : State) (gr ch : Fin 2) (f : ReqForm) : formValue s gr ch f 0#32 = 0#32 := by
  cases f with
  | untouched => rfl
  | long b => exact reqLine_zero (longExp s gr ch b)
  | short b win => exact reqLine_zero (shortExp s gr ch b win)

theorem opposite_reqLine {q : Int} (hq : q.natAbs ≤ 8206) (e4 : Int) :
    opposite q (reqLine (fOfInt q) e4) (reqLine (fOfInt (-q)) e4) := by
  rw [reqLine_of_int hq rfl, reqLine_of_int (by rwa [Int.natAbs_neg]) rfl]
  exact opposite_requantized q e4

theorem opposite_formValue {q : Int} (hq : q.natAbs ≤ 8206) (s : State) (gr ch : Fin 2) (f : ReqForm) :
    opposite q (formValue s gr ch f (fOfInt q)) (formValue s gr ch f (fOfInt (-q))) := by
  cases f with
  | untouched => exact opposite_fOfInt q
  | long => exact opposite_reqLine hq _
  | short => exact opposite_reqLine hq _

/-! ### Four quarter steps double the gain (R190) -/

/-- A power of 2 common to a number and its divisor does not change the rounded quotient. -/
theorem roundShift_mul_two_pow (n s k : Nat) : roundShift (n * 2 ^ k) (s + k) = roundShift n s := by
  have hk : 0 < 2 ^ k := Nat.two_pow_pos k
  have hgt : 2 * (n % 2 ^ s * 2 ^ k) > 2 ^ s * 2 ^ k ↔ 2 * (n % 2 ^ s) > 2 ^ s := by
    rw [← Nat.mul_assoc]; exact Nat.mul_lt_mul_right hk
  have heq : 2 * (n % 2 ^ s * 2 ^ k) = 2 ^ s * 2 ^ k ↔ 2 * (n % 2 ^ s) = 2 ^ s := by
    rw [← Nat.mul_assoc]; exact Nat.mul_left_inj hk.ne'
  simp only [roundShift, Nat.pow_add, Nat.mul_div_mul_right _ _ hk, Nat.mul_mod_mul_right, Bool.or_eq_true, Bool.and_eq_true,
    decide_eq_true_eq, beq_iff_eq, hgt, heq]

theorem log2_mul_two_pow {n : Nat} (h : n ≠ 0) (k : Nat) : Nat.log2 (n * 2 ^ k) = Nat.log2 n + k := by
  induction k with
  | zero => rw [Nat.pow_zero, Nat.mul_one, Nat.add_zero]
  | succ k ih =>
    rw [Nat.pow_succ, ← Nat.mul_assoc, Nat.log2_eq_log_two, Nat.log_mul_base (by decide) (Nat.mul_ne_zero h (Nat.two_pow_pos k).ne'),
      ← Nat.log2_eq_log_two, ih, Nat.add_assoc]

theorem bitLength_mul_two_pow {n : Nat} (h : n ≠ 0) (k : Nat) : bitLength (n * 2 ^ k) = bitLength n + k := by
  rw [bitLength, bitLength, if_neg h, if_neg (Nat.mul_ne_zero h (Nat.two_pow_pos k).ne'), log2_mul_two_pow h, Nat.add_right_comm]

/-- A number of at least 24 bits: the binary point moves with the exponent field, unless the value overflows. -/
theorem roundMag_mul_two_pow {n L k : Nat} (hL : bitLength n = L + 24) (hfinite : (L + k) * 2 ^ 23 + roundShift n L < infBits) :
    roundMag (n * 2 ^ k) 0 = (L + k) * 2 ^ 23 + roundShift n L := by
  have hn : n ≠ 0 := by rintro rfl; exact absurd hL (by rw [bitLength, if_pos rfl]; omega)
  simp only [roundMag, bitLength_mul_two_pow hn, hL]
  rw [show max 0 (L + 24 + k - 24) = L + k by omega, roundShift_mul_two_pow, Nat.sub_zero, if_neg (by omega)]

theorem fFinite_fPack {neg : Bool} {m : Nat} (h : m < infBits) : fFinite (fPack neg m) = true := by
  have hm : m < 2 ^ 31 := h.trans (by decide)
  rw [infBits] at h
  rw [fFinite, fPack_exp neg hm, bne_iff_ne]
  omega

/-- A positive normal value: the hidden bit and the fraction, scaled by the exponent field. -/
theorem fInt_fPack_normal {m e : Nat} (hm : m < 2 ^ 31) (he : m / 2 ^ 23 = e + 1) :
    fInt (fPack false m) = ((m % 2 ^ 23 + 2 ^ 23) * 2 ^ e : Nat) := by
  rw [fInt, fPack_sign false hm, if_neg Bool.false_ne_true, fUnits, fPack_exp false hm, fPack_frac false hm, he,
    if_neg (Nat.succ_ne_zero e), Nat.add_sub_cancel]

/-- One more in the exponent field of a normal value doubles it. -/
theorem fInt_fPack_add_exp {m : Nat} (h1 : 2 ^ 23 ≤ m) (h2 : m + 2 ^ 23 < 2 ^ 31) :
    fInt (fPack false (m + 2 ^ 23)) = 2 * fInt (fPack false m) := by
  obtain ⟨e, he⟩ : ∃ e, m / 2 ^ 23 = e + 1 := ⟨m / 2 ^ 23 - 1, by omega⟩
  rw [fInt_fPack_normal (by omega) he, fInt_fPack_normal (e := e + 1) h2 (by omega), Nat.add_mod_right, Nat.pow_succ' (n := e),
    Nat.mul_left_comm]
  exact Nat.cast_mul ..

/-- `2^(r/4)` at 41 binary places, with the sticky bit `gain` rounds from. -/
def quarterRoot (r : Nat) : Nat :=
  2 * iroot 4 (2 ^ r * 2 ^ 160) 44 0 + (iroot 4 (2 ^ r * 2 ^ 160) 44 0 ^ 4 != 2 ^ r * 2 ^ 160).toNat

/-- Its 24-bit rounding, for each quarter. -/
theorem quarterRoot_rounds : ∀ r, r < 4 →
    bitLength (quarterRoot r) = 18 + 24 ∧ 2 ^ 23 ≤ roundShift (quarterRoot r) 18 ∧ roundShift (quarterRoot r) 18 < 2 ^ 24 := by
  decide +kernel

/-- The gain of every exponent the rules reach: the rounded quarter root under an exponent field of the whole part. -/
theorem gain_eq_fPack {e4 : Int} (h1 : -326 ≤ e4) (h2 : e4 ≤ 45) :
    gain e4 = fPack false ((126 + e4 / 4).toNat * 2 ^ 23 + roundShift (quarterRoot (e4 % 4).toNat) 18) := by
  obtain ⟨hbits, -, hlt⟩ := quarterRoot_rounds (e4 % 4).toNat (by omega)
  have hk : 18 + (149 - ((40 - e4 / 4).toNat + 1)) = (126 + e4 / 4).toNat := by omega
  rw [gain, fReal, if_pos (by omega), fRound, ← quarterRoot, roundMag_mul_two_pow hbits, hk]
  rw [hk, infBits]
  omega

/-- The whole part of an exponent is in its exponent field alone. -/
theorem gain_add_four {e4 : Int} (h1 : -326 ≤ e4) (h2 : e4 ≤ 41) :
    fFinite (gain (e4 + 4)) = true ∧ fInt (gain (e4 + 4)) = 2 * fInt (gain e4) := by
  obtain ⟨-, hge, hlt⟩ := quarterRoot_rounds (e4 % 4).toNat (by omega)
  have hnext : gain (e4 + 4) =
      fPack false ((126 + e4 / 4).toNat * 2 ^ 23 + roundShift (quarterRoot (e4 % 4).toNat) 18 + 2 ^ 23) := by
    rw [gain_eq_fPack (by omega) (by omega), show (e4 + 4) % 4 = e4 % 4 by omega,
      show (126 + (e4 + 4) / 4).toNat = (126 + e4 / 4).toNat + 1 by omega, Nat.add_one_mul,
      Nat.add_right_comm]
  rw [hnext, gain_eq_fPack h1 (by omega)]
  exact ⟨fFinite_fPack (by rw [infBits]; omega), fInt_fPack_add_exp (by omega) (by omega)⟩

/-- Settles O38: zero lines by `formValue_zero`, the odd symmetry by `opposite_requantized` and `opposite_formValue`, the doubling by
`gain_add_four`. -/
theorem requantizeLaws : Obligations.RequantizeLaws := by
  refine ⟨fun gr ch s => ⟨_, exec_req_retabled gr ch s, fun i hzero => ?_⟩, fun gr ch q s hq => ?_,
    fun gr ch s xr => ⟨_, _, exec_req_retabled gr ch s, exec_req_retabled gr ch _, fun i q hi hq hline hneg => ?_⟩,
    fun e4 => gain_add_four⟩
  · by_cases hi : i < 576
    · rw [retabled_line hi, reqValue_eq_formValue s gr ch i s.xr, hzero, formValue_zero]
    · exact State.line_of_le _ _ _ (Nat.le_of_not_lt hi)
  · have hneg := toInt_neg_of_quant hq
    have hq' : (-q).toInt.natAbs ≤ 8206 := by rwa [hneg, Int.natAbs_neg]
    exact ⟨fun b => ⟨_, _, exec_reqL_of_int hq gr ch b s, exec_reqL_of_int hq' gr ch b s, hneg ▸ opposite_requantized _ _⟩,
      fun b win => ⟨_, _, exec_reqS_of_int hq gr ch b win s, exec_reqS_of_int hq' gr ch b win s, hneg ▸ opposite_requantized _ _⟩⟩
  · rw [retabled_line hi, retabled_line hi]
    rw [reqValue_eq_formValue s gr ch i s.xr, reqValue_eq_formValue, hline, hneg]
    exact opposite_formValue hq s gr ch _

end Sys2Proof.Machine
end

section
/-! Stereo processing (O40 to O44; 44_stereo R210 to R218): `STEREO` as a table of pairs of lines, the structures it refuses, and the
intensity position of a line of a long, a short and a mixed granule. -/

namespace Sys2Proof.Machine

open Sys2Proof.Claims

/-- Settles O40: each element function returns the two values its rule writes; the ratios of position 6 are computed. -/
theorem stereoElements : Obligations.StereoElements := fun _ =>
  ⟨fun _ _ => exec_stMs, fun _ _ => exec_stIs, by decide⟩

/-! ### `STEREO` as a table of pairs of lines (R210) -/

/-- `s` at `STEREO`, with the lines of both channels of one granule tabulated anew. -/
def State.pairTabled (s : State) (gr : Fin 2) (f : Nat → F32 × F32) : State :=
  ((s.stage .stereo gr 0).setLines gr 0 (.tab 576 fun i => (f i).1)).setLines gr 1 (.tab 576 fun i => (f i).2)

section
variable {s : State} {gr : Fin 2} {f : Nat → F32 × F32}

theorem pairTabled_eq : s.pairTabled gr f = { s with seq := ⟨.stereo, gr, 0⟩, xr := (s.pairTabled gr f).xr } := rfl

theorem pairTabled_otherGranule (gr' ch : Fin 2) (h : gr' ≠ gr) : (s.pairTabled gr f).lines gr' ch = s.lines gr' ch := by
  rw [State.pairTabled, State.lines_setLines_other _ _ fun k => h k.1, State.lines_setLines_other _ _ fun k => h k.1]
  rfl

theorem pairTabled_line {i : Nat} (hi : i < 576) : ((s.pairTabled gr f).line gr 0 i, (s.pairTabled gr f).line gr 1 i) = f i := by
  have hleft : (s.pairTabled gr f).line gr 0 i = (f i).1 := by
    rw [State.line, State.pairTabled, State.lines_setLines_other _ _ fun k => Fin.zero_ne_one k.2]
    exact State.line_setLines_tab (s.stage .stereo gr 0) gr 0 _ hi
  rw [hleft, State.pairTabled, State.line_setLines_tab _ _ _ _ hi]

/-- A table of the lines as they are. -/
theorem pairTabled_self : (s.pairTabled gr fun i => (s.line gr 0 i, s.line gr 1 i)) = s.stage .stereo gr 0 := by
  have hrow (ch : Fin 2) : Bank.tab 576 (fun i => s.line gr ch i) = s.lines gr ch := Bank.tab_get _ _
  rw [State.pairTabled, hrow, hrow]
  exact (congrArg (fun t : State => t.setLines gr 1 (s.lines gr 1)) (setLines_lines (s := s.stage .stereo gr 0))).trans
    (setLines_lines (s := s.stage .stereo gr 0))

end

/-! ### When `STEREO` raises, and what it does where both mechanisms are off (R217, R218) -/

section
variable {s : State} {gr : Fin 2} {i : Nat}

theorem stereoMismatch_iff : stereoMismatch s gr = true ↔ (s.gran gr 0).isShort ≠ (s.gran gr 1).isShort ∨
    ((s.gran gr 0).isShort = true ∧ (s.gran gr 0).mixed ≠ (s.gran gr 1).mixed) := by
  rw [stereoMismatch, Bool.or_eq_true, Bool.and_eq_true, bne_iff_ne, bne_iff_ne]

/-- The two channels have one block structure: both long, or both short and alike in `MIXED`. -/
theorem not_stereoMismatch (h : (s.gran gr 0).isShort = (s.gran gr 1).isShort)
    (hm : (s.gran gr 0).isShort = true → (s.gran gr 0).mixed = (s.gran gr 1).mixed) : ¬stereoMismatch s gr = true :=
  fun k => (stereoMismatch_iff.1 k).elim (fun hne => hne h) fun hne => hne.2 (hm hne.1)

theorem isOn_of_joint {h : Hdr} (hj : h.mode = .joint) : h.isOn = h.modeExt.getLsbD 0 := by rw [Hdr.isOn, hj]; rfl

theorem msOn_of_joint {h : Hdr} (hj : h.mode = .joint) : h.msOn = h.modeExt.getLsbD 1 := by rw [Hdr.msOn, hj]; rfl

theorem isOn_msOn_of_not_joint {h : Hdr} (hj : h.mode ≠ .joint) : h.isOn = false ∧ h.msOn = false := by
  have hmode : (h.mode == .joint) = false := beq_eq_false_iff_ne.2 hj
  rw [Hdr.isOn, Hdr.msOn, hmode]
  exact ⟨rfl, rfl⟩

/-- With both mechanisms off no line changes. -/
theorem stereoValue_off (hi : s.hdr.isOn = false) (hm : s.hdr.msOn = false) : stereoValue s gr = fun i => (s.line gr 0 i, s.line gr 1 i) := by
  funext i
  simp [stereoValue, hi, hm]

/-- The early ends of R210 are the case of a table that changes nothing: `STEREO` raises on a mismatch under intensity and tabulates
`stereoValue` otherwise. -/
theorem opStereo_eq (gr : Fin 2) (s : State) : opStereo gr s =
    if s.hdr.isOn = true ∧ stereoMismatch s gr = true then .raised .stereoBlockMismatch (s.stage .stereo gr 0)
    else .ok () (s.pairTabled gr (stereoValue s gr)) := by
  have hoff (hi : s.hdr.isOn = false) (hm : s.hdr.msOn = false) : s.pairTabled gr (stereoValue s gr) = s.stage .stereo gr 0 := by
    rw [stereoValue_off hi hm, pairTabled_self]
  by_cases hj : s.hdr.mode = .joint
  · by_cases hnone : s.hdr.msOn = false ∧ s.hdr.isOn = false
    · rw [hoff hnone.2 hnone.1, if_neg (by simp [hnone.2])]
      exact (if_neg (not_not.2 hj)).trans (if_pos hnone)
    · exact (if_neg (not_not.2 hj)).trans (if_neg hnone)
  · obtain ⟨hi, hm⟩ := isOn_msOn_of_not_joint hj
    rw [hoff hi hm, if_neg (by simp [hi])]
    exact if_pos hj

theorem exec_stereo_mismatch (hi : s.hdr.isOn = true) (h : stereoMismatch s gr = true) :
    exec (.stereo gr) s = .next (takeException .stereoBlockMismatch [] (s.stage .stereo gr 0)) := by
  rw [exec_stereo, execStereo, opStereo_eq, if_pos ⟨hi, h⟩, run_raised]

theorem exec_stereo_tabled (h : ¬(s.hdr.isOn = true ∧ stereoMismatch s gr = true)) :
    exec (.stereo gr) s = .next (s.pairTabled gr (stereoValue s gr)) := by
  rw [exec_stereo, execStereo, opStereo_eq, if_neg h, run_ok]

theorem exec_stereo_off (hi : s.hdr.isOn = false) (hm : s.hdr.msOn = false) :
    exec (.stereo gr) s = .next (s.stage .stereo gr 0) := by
  rw [exec_stereo_tabled (by simp [hi]), stereoValue_off hi hm, pairTabled_self]

/-! ### The three classes of lines (R211) -/

theorem stereoValue_of_intensity {p : Nat} (hi : s.hdr.isOn = true) (h : intensity s gr i = some p) :
    stereoValue s gr i = stIs (s.line gr 0 i) p := by
  simp only [stereoValue, if_pos hi, h]

theorem stereoValue_of_not_intensity (hj : s.hdr.mode = .joint) (h : s.hdr.isOn = true → intensity s gr i = none) :
    stereoValue s gr i = notIntensity s gr i := by
  have hnone : (if s.hdr.isOn = true then intensity s gr i else none) = none := ite_eq_right_iff.2 h
  simp only [stereoValue, hnone, msOn_of_joint hj]
  rfl

/-- A line whose position is that of one scale factor where its band is eligible. -/
theorem stereoValue_withPosition {eligible : Prop} [Decidable eligible] {p : BitVec 4} (hj : s.hdr.mode = .joint)
    (hext : s.hdr.modeExt.getLsbD 0 = true) (h : intensity s gr i = if eligible then position p else none) :
    withPosition s gr i eligible p (stereoValue s gr i) := by
  refine ⟨fun he hp => ?_, fun hnot => stereoValue_of_not_intensity hj fun _ => ?_⟩
  · exact stereoValue_of_intensity ((isOn_of_joint hj).trans hext) (by rw [h, if_pos he, position, if_pos hp])
  · rw [h, ite_eq_right_iff]
    exact fun he => if_neg (Nat.not_lt.2 (hnot.resolve_left (not_not.2 he)))

end

/-- Settles O41: without intensity `STEREO` is off or a table in which no line has a position (`stereoValue_of_not_intensity`). -/
theorem midSide : Obligations.MidSide := by
  refine fun gr s => ⟨fun hoff => ?_, fun hj hext => ?_⟩
  · obtain ⟨hi, hm⟩ : s.hdr.isOn = false ∧ s.hdr.msOn = false := by
      by_cases hj : s.hdr.mode = .joint
      · rw [isOn_of_joint hj, msOn_of_joint hj, hoff.resolve_left (not_not.2 hj)]
        exact ⟨rfl, rfl⟩
      · exact isOn_msOn_of_not_joint hj
    exact exec_stereo_off hi hm
  · have hi : s.hdr.isOn = false := by rw [isOn_of_joint hj, hext]; rfl
    refine ⟨_, exec_stereo_tabled (by simp [hi]), pairTabled_eq, pairTabled_otherGranule, fun i hmax => ?_⟩
    rw [pairTabled_line hmax, stereoValue_of_not_intensity hj (by simp [hi]), notIntensity, hext]
    exact if_congr (and_iff_right rfl) rfl rfl

/-- Settles O42: `STEREO` raises where intensity is on and `stereoMismatch` holds (`stereoMismatch_iff`), and is a table of the granule's lines
everywhere else. -/
theorem stereoMismatch_faults : Obligations.StereoMismatch := by
  intro gr s hj differ
  rw [← isOn_of_joint hj]
  refine ⟨fun hi hd => ⟨_, exec_stereo_mismatch hi (stereoMismatch_iff.2 hd), ?_⟩,
    fun hno => ⟨_, exec_stereo_tabled ?_, pairTabled_eq, pairTabled_otherGranule⟩⟩
  · exact takeException_faulted (by decide) [] (s.stage .stereo gr 0)
  · rintro ⟨hi, hmis⟩
    exact hno.elim (fun hoff => Bool.false_ne_true (hoff.symm.trans hi)) fun hsame => hsame (stereoMismatch_iff.1 hmis)

/-! ### The intensity position of a line (R212) -/

section
variable {s : State} {gr : Fin 2} {i b : Nat}

theorem intensity_long (h : (s.gran gr 0).isShort = false) (hb : b < 22) (h1 : s.longRow.getD b 0 ≤ i)
    (h2 : i < s.longRow.getD (b + 1) 0) : intensity s gr i =
      if b ≤ 20 ∧ (s.gran gr 1).count1.toNat ≤ s.longRow.getD b 0 then position (s.scfLong gr 1 b) else none := by
  rw [ite_and]
  simp only [intensity, h, bandOf_longRow s hb h1 h2, markLong, edge, if_true]
  exact if_congr Nat.lt_succ_iff rfl rfl

/-- No long band straddles line 36. -/
theorem sfbLong_next_le_36 : ∀ (lsf : Bool) (f : Fin 3) (b : Nat), b < 22 → (sfbLong lsf f).getD b 0 < 36 →
    (sfbLong lsf f).getD (b + 1) 0 ≤ 36 := by decide

/-- A line from 36 on is in no long band of a mixed granule. -/
theorem longBand_ends_above_36 (hi : i < 576) (h36 : 36 ≤ i) : ¬edge s.longRow (bandOf s.longRow i + 1) ≤ 36 := by
  obtain ⟨b, hb, h1, h2⟩ := exists_longBand s hi
  rw [bandOf_longRow s hb h1 h2, edge]
  omega

theorem intensity_mixedLong (h : (s.gran gr 0).isShort = true) (hm : (s.gran gr 0).mixed = true) (hi : i < 36) (hb : b < 22)
    (h1 : s.longRow.getD b 0 ≤ i) (h2 : i < s.longRow.getD (b + 1) 0) : intensity s gr i =
      if (s.gran gr 1).count1.toNat ≤ s.longRow.getD b 0 then position (s.scfLong gr 1 b) else none := by
  have hends : edge s.longRow (b + 1) ≤ 36 := sfbLong_next_le_36 s.hdr.lsf s.hdr.sfreq b hb (Nat.lt_of_le_of_lt h1 hi)
  simp only [intensity, h, hm, bandOf_longRow s hb h1 h2, Bool.true_eq_false, if_false, if_pos hends]
  rfl

/-- Line `j` of window `win` of short band `b`, in the interleaved layout. -/
theorem intensity_short {win j : Nat} (h : (s.gran gr 0).isShort = true) (hb : b < 13) (hwin : win < 3)
    (hj : j < s.shortRow.getD (b + 1) 0 - s.shortRow.getD b 0) (hm : (s.gran gr 0).mixed = true → 3 ≤ b) :
    intensity s gr (3 * s.shortRow.getD b 0 + 3 * j + win) =
      if b ≤ 11 ∧ (s.gran gr 1).count1.toNat ≤ 3 * s.shortRow.getD b 0 then position (s.scfShort gr 1 b win) else none := by
  obtain ⟨-, hend, hmax⟩ := shortBand_lines s hb hwin hj
  have hband := bandOf_shortRow s hb (i := 3 * s.shortRow.getD b 0 + 3 * j + win) (by omega) hend
  have hplace : (3 * s.shortRow.getD b 0 + 3 * j + win - 3 * s.shortRow.getD b 0) % 3 = win := by omega
  have hmark : markShort s gr b (3 * s.shortRow.getD b 0 + 3 * j + win) =
      if (s.gran gr 1).count1.toNat ≤ 3 * s.shortRow.getD b 0 then position (s.scfShort gr 1 b win) else none := by
    simp only [markShort, edge, hplace, ge_iff_le]
  rw [ite_and, ← hmark]
  cases hmixed : (s.gran gr 0).mixed with
  | false =>
    simp only [intensity, h, hmixed, hband, Bool.true_eq_false, if_false, if_true]
    exact if_congr Nat.lt_succ_iff rfl rfl
  | true =>
    have h3 := hm hmixed
    have h36 := shortBand_ge_36 (s := s) hb h3
    have habove := longBand_ends_above_36 (s := s) (i := 3 * s.shortRow.getD b 0 + 3 * j + win) (by omega) (by omega)
    simp only [intensity, h, hmixed, hband, Bool.true_eq_false, if_false, if_neg habove]
    exact if_congr ((and_iff_right h3).trans Nat.lt_succ_iff) rfl rfl

end

/-- Settles O43: a line of a long band has the position `intensity_long` gives. -/
theorem intensityLong : Obligations.IntensityLong := by
  intro gr s hj hext h0 h1
  have hsame := not_stereoMismatch (h0.trans h1.symm) fun hshort => absurd (h0.symm.trans hshort) Bool.false_ne_true
  refine ⟨_, exec_stereo_tabled fun k => hsame k.2, fun i b hi hb hlo hhi => ?_⟩
  rw [pairTabled_line hi]
  exact stereoValue_withPosition hj hext (intensity_long h0 hb hlo hhi)

/-- Settles O44: a line of a short band has the position of its window (`intensity_short`), one of lines 0 to 35 of a mixed granule that of its
long band (`intensity_mixedLong`). -/
theorem intensityShort : Obligations.IntensityShort := by
  intro gr s hj hext h0 h1 hmixed
  have hsame := not_stereoMismatch (h0.trans h1.symm) fun _ => hmixed
  refine ⟨_, exec_stereo_tabled fun k => hsame k.2, fun b win j hb hwin hlen hm => ?_, fun i b hm hi hb hlo hhi => ?_⟩
  · obtain ⟨-, hend, hmax⟩ := shortBand_lines s hb hwin hlen
    intro i
    rw [pairTabled_line (by omega)]
    exact stereoValue_withPosition hj hext (intensity_short h0 hb hwin hlen hm)
  · rw [pairTabled_line (by omega)]
    exact stereoValue_withPosition hj hext (intensity_mixedLong h0 hm hi hb hlo hhi)

end Sys2Proof.Machine
end

section
/-! Antialias, hybrid synthesis and frequency inversion (O45 to O50; 45_antialias_hybrid R225 to R233): `ALIAS` and `FINV` as tables of
lines, the two transforms, and `HYB` subband by subband (`hybAfter`). -/

namespace Sys2Proof.Machine

open Sys2Proof.Claims

/-! ### `ALIAS` (R225) -/

theorem exec_antialias_retabled (gr ch : Fin 2) (s : State) :
    exec (.antialias gr ch) s = .next (s.retabled .antialias gr ch (aliasValue s gr ch)) := rfl

theorem aliasLimit_eq (g : Gran) : aliasLimit g = if g.isShort then (if g.mixed then 2 else 0) else 32 := by
  cases hshort : g.isShort <;> simp [aliasLimit, Gran.isMixed, hshort]

theorem aliasLimit_le (g : Gran) : aliasLimit g ≤ 32 := by
  rw [aliasLimit_eq]
  split_ifs <;> omega

section
variable {s : State} {gr ch : Fin 2} {sb i : Nat}

/-- The line above a boundary. -/
theorem aliasValue_above (h1 : 1 ≤ sb) (hsb : sb < aliasLimit (s.gran gr ch)) (hi : i < 8) : aliasValue s gr ch (18 * sb + i) =
    fAdd (fMul (s.line gr ch (18 * sb + i)) (tabCs i)) (fMul (s.line gr ch (18 * sb - 1 - i)) (tabCa i)) := by
  have hdiv : (18 * sb + i) / 18 = sb := by omega
  have hmod : (18 * sb + i) % 18 = i := by omega
  simp only [aliasValue, hdiv, hmod]
  exact if_pos ⟨hi, h1, hsb⟩

/-- The line below a boundary. -/
theorem aliasValue_below (h1 : 1 ≤ sb) (hsb : sb < aliasLimit (s.gran gr ch)) (hi : i < 8) : aliasValue s gr ch (18 * sb - 1 - i) =
    fSub (fMul (s.line gr ch (18 * sb - 1 - i)) (tabCs i)) (fMul (s.line gr ch (18 * sb + i)) (tabCa i)) := by
  have hdiv : (18 * sb - 1 - i) / 18 = sb - 1 := by omega
  have hmod : (18 * sb - 1 - i) % 18 = 17 - i := by omega
  have hnext : sb - 1 + 1 = sb := by omega
  have hplace : 17 - (17 - i) = i := by omega
  simp only [aliasValue, hdiv, hmod, hnext, hplace]
  rw [if_neg (by omega), if_pos ⟨by omega, hsb⟩]

/-- A line of no butterfly. -/
theorem aliasValue_outside {n : Nat}
    (h : ∀ sb i, 1 ≤ sb → sb < aliasLimit (s.gran gr ch) → i < 8 → n ≠ 18 * sb - 1 - i ∧ n ≠ 18 * sb + i) :
    aliasValue s gr ch n = s.line gr ch n := by
  have habove : ¬(n % 18 < 8 ∧ 1 ≤ n / 18 ∧ n / 18 < aliasLimit (s.gran gr ch)) := fun ⟨hr, h1, hsb⟩ =>
    (h (n / 18) (n % 18) h1 hsb hr).2 (by omega)
  have hbelow : ¬(10 ≤ n % 18 ∧ n / 18 + 1 < aliasLimit (s.gran gr ch)) := fun ⟨hr, hsb⟩ =>
    (h (n / 18 + 1) (17 - n % 18) (by omega) hsb (by omega)).1 (by omega)
  simp only [aliasValue, if_neg habove, if_neg hbelow]

end

/-- Lines that a table leaves alone, those past the row among them. -/
theorem retabled_line_kept {s : State} {op : Opid} {gr ch : Fin 2} {f : Nat → F32} {n : Nat} (h : f n = s.line gr ch n) :
    (s.retabled op gr ch f).line gr ch n = s.line gr ch n := by
  by_cases hn : n < 576
  · rw [retabled_line hn, h]
  · rw [State.line_of_le _ _ _ (Nat.le_of_not_lt hn), State.line_of_le _ _ _ (Nat.le_of_not_lt hn)]

/-- Settles O45: `ALIAS` is the table `aliasValue` of the old lines; a line is above a boundary, below one, or in no butterfly. -/
theorem antialias : Obligations.Antialias := by
  intro gr ch s g sblim
  have hlim : sblim = aliasLimit (s.gran gr ch) := (aliasLimit_eq _).symm
  have hmax : sblim ≤ 32 := hlim ▸ aliasLimit_le _
  refine ⟨_, exec_antialias_retabled gr ch s, retabled_eq, retabled_otherLines, fun sb i h1 hsb hi => ⟨?_, ?_⟩, fun n hout => ?_⟩
  · rw [retabled_line (by omega)]
    exact aliasValue_below h1 (hlim ▸ hsb) hi
  · rw [retabled_line (by omega)]
    exact aliasValue_above h1 (hlim ▸ hsb) hi
  · exact retabled_line_kept (aliasValue_outside (hlim ▸ hout))

/-! ### `FINV` (R232) -/

/-- Line `n` after `FINV`. -/
def finvValue (s : State) (gr ch : Fin 2) (n : Nat) : F32 :=
  if n / 18 % 2 = 1 ∧ n % 18 % 2 = 1 then fNeg (s.line gr ch n) else s.line gr ch n

theorem exec_finv_retabled (gr ch : Fin 2) (s : State) :
    exec (.finv gr ch) s = .next (s.retabled .finv gr ch (finvValue s gr ch)) := rfl

theorem retabled_retabled_xr {s : State} {op op' : Opid} {gr ch : Fin 2} {f g : Nat → F32} :
    ((s.retabled op gr ch f).retabled op' gr ch g).xr = (s.retabled op' gr ch g).xr := by
  simp [State.retabled]

/-- Settles O50: `FINV` is the table `finvValue`; the lines it negates are negated back by a second one (`fNeg_fNeg`). -/
theorem frequencyInversion : Obligations.FrequencyInversion := by
  intro gr ch s
  refine ⟨_, exec_finv_retabled gr ch s, retabled_eq, retabled_otherLines, fun sb ss hsb hss => ?_, _, exec_finv_retabled gr ch _, ?_⟩
  · have hdiv : (18 * sb + ss) / 18 = sb := by omega
    have hmod : (18 * sb + ss) % 18 = ss := by omega
    rw [retabled_line (by omega), finvValue, hdiv, hmod]
  · have hback : Bank.tab 576 (finvValue (s.retabled .finv gr ch (finvValue s gr ch)) gr ch) = Bank.tab 576 (s.line gr ch) := by
      refine Bank.ext_get 0#32 fun n hn => ?_
      rw [Bank.get_tab _ _ hn, Bank.get_tab _ _ hn, finvValue, retabled_line hn, finvValue]
      split
      · exact fNeg_fNeg _
      · rfl
    rw [State.retabled, hback]
    exact retabled_retabled_xr.trans (congrArg State.xr (retabled_line_self (s := s) (op := .finv)) :)

/-! ### `IMDCT.L` and `IMDCT.S` (R228, R229) -/

/-- The windowed sum of one short window at its place `p` (R229). -/
def shortPart (x : Bank F32 18) (w p : Nat) : F32 :=
  fMul (fSum 6 fun m => fMul (x.get (w + 3 * m) 0#32) (cos12 m p)) (imdctWin .short p)

/-- Value `k` of `IMDCT.S`: the windows that reach it, one after another. -/
theorem imdctS_get (x : Bank F32 18) {k : Nat} (hk : k < 36) : (imdctS x).get k 0#32 =
    [0, 1, 2].foldl (fun raw w => if 6 * w + 6 ≤ k ∧ k < 6 * w + 18 then fAdd raw (shortPart x w (k - 6 * w - 6)) else raw) 0#32 :=
  Bank.get_tab _ _ hk

theorem imdctL_get (x : Bank F32 18) (bt : BlockType) {p : Nat} (hp : p < 36) : (imdctL x bt).get p 0#32 =
    fMul (fSum 18 fun m => fMul (x.get m 0#32) (cos36 m p)) (imdctWin bt p) := Bank.get_tab _ _ hp

/-- Settles O46: a value of `IMDCT.L` is one windowed sum (`imdctL_get`), one of `IMDCT.S` the fold of the windows that reach it
(`imdctS_get`). -/
theorem inverseTransforms : Obligations.InverseTransforms := by
  refine fun x s => ⟨fun bt _ => ⟨(imdctL x bt).cells, (imdctL x bt).len, exec_imdctL, fun p hp => imdctL_get x bt hp⟩,
    (imdctS x).cells, (imdctS x).len, exec_imdctS, fun p hp => (imdctS_get x hp).trans ?_⟩
  have hplace (w : Nat) : p - 6 * w - 6 = p - 6 - 6 * w := by omega
  simp only [List.foldl_cons, List.foldl_nil, hplace]
  by_cases h6 : p < 6
  · rw [if_neg (by omega), if_neg (by omega), if_neg (by omega), if_pos h6]
  rw [if_neg h6]
  by_cases h12 : p < 12
  · rw [if_neg (by omega), if_neg (by omega), if_pos (by omega), if_pos h12, shortPart]
  rw [if_neg h12]
  by_cases h18 : p < 18
  · rw [if_neg (by omega), if_pos (by omega), if_pos (by omega), if_pos h18, shortPart, shortPart]
  rw [if_neg h18]
  by_cases h24 : p < 24
  · rw [if_pos (by omega), if_pos (by omega), if_neg (by omega), if_pos h24, shortPart, shortPart]
  rw [if_neg h24]
  by_cases h30 : p < 30
  · rw [if_pos (by omega), if_neg (by omega), if_neg (by omega), if_pos h30, shortPart]
  · rw [if_neg (by omega), if_neg (by omega), if_neg (by omega), if_neg h30]

/-! ### `OLA` and `HYB` (R227, R230, R231) -/

/-- `s` with the lines of `(gr, ch)` and the tail of `ch` tabulated anew. -/
def State.overlapped (s : State) (gr ch : Fin 2) (f g : Nat → F32) : State := (s.setLines gr ch (.tab 576 f)).setStore ch (.tab 576 g)

section
variable {s : State} {gr ch : Fin 2} {f g : Nat → F32} {n sb : Nat}

theorem overlapped_eq : s.overlapped gr ch f g =
    { s with xr := (s.overlapped gr ch f g).xr, store := (s.overlapped gr ch f g).store } := rfl

theorem overlapped_otherLines : OtherLines gr ch s (s.overlapped gr ch f g) := fun _ _ h => State.lines_setLines_other s _ h

theorem overlapped_otherStore (ch' : Fin 2) (h : ch' ≠ ch) : (s.overlapped gr ch f g).store.get ch' = s.store.get ch' := by
  rw [State.overlapped, State.setStore, Two.get_set, if_neg h.symm]
  rfl

theorem overlapped_store : (s.overlapped gr ch f g).store.get ch = .tab 576 g := Two.get_set_same _ _ _

theorem overlapped_line (hn : n < 576) : (s.overlapped gr ch f g).line gr ch n = f n := State.line_setLines_tab s gr ch f hn

theorem overlapped_overlap {i : Nat} (hn : 18 * sb + i < 576) : (s.overlapped gr ch f g).overlap ch sb i = g (18 * sb + i) := by
  rw [State.overlap, overlapped_store, Bank.get_tab _ _ hn]

/-- The last tables stand. -/
theorem overlapped_overlapped {f' g' : Nat → F32} : (s.overlapped gr ch f g).overlapped gr ch f' g' = s.overlapped gr ch f' g' := by
  simp [State.overlapped, State.setLines, State.setStore]

theorem overlapped_congr {f' g' : Nat → F32} (hf : ∀ n, n < 576 → f n = f' n) (hg : ∀ n, n < 576 → g n = g' n) :
    s.overlapped gr ch f g = s.overlapped gr ch f' g' := by
  have htab {f f' : Nat → F32} (h : ∀ n, n < 576 → f n = f' n) : Bank.tab 576 f = Bank.tab 576 f' :=
    Bank.ext_get 0#32 fun n hn => by rw [Bank.get_tab _ _ hn, Bank.get_tab _ _ hn, h n hn]
  rw [State.overlapped, State.overlapped, htab hf, htab hg]

theorem overlapped_self : s.overlapped gr ch (s.line gr ch) (fun n => (s.store.get ch).get n 0#32) = s := by
  have hlines : Bank.tab 576 (s.line gr ch) = s.lines gr ch := Bank.tab_get _ _
  rw [State.overlapped, hlines, Bank.tab_get, setLines_lines, State.setStore, Two.set_get]

end

/-- Line `n` after `OLA`. -/
def olaLine (s : State) (gr ch : Fin 2) (sb : Nat) (raw : Bank F32 36) (n : Nat) : F32 :=
  if n / 18 = sb then fAdd (raw.get (n % 18) 0#32) (s.overlap ch sb (n % 18)) else s.line gr ch n

/-- Cell `n` of the tail after `OLA`. -/
def olaTail (s : State) (ch : Fin 2) (sb : Nat) (raw : Bank F32 36) (n : Nat) : F32 :=
  if n / 18 = sb then raw.get (18 + n % 18) 0#32 else (s.store.get ch).get n 0#32

theorem overlapAdd_eq (gr ch : Fin 2) (sb : Nat) (raw : Bank F32 36) (s : State) :
    overlapAdd gr ch sb raw s = s.overlapped gr ch (olaLine s gr ch sb raw) (olaTail s ch sb raw) := rfl

section
variable {s : State} {gr ch : Fin 2} {raw : Bank F32 36} {sb i : Nat}

theorem overlapAdd_same (hsb : sb < 32) (hi : i < 18) :
    (overlapAdd gr ch sb raw s).line gr ch (18 * sb + i) = fAdd (raw.get i 0#32) (s.overlap ch sb i) ∧
      (overlapAdd gr ch sb raw s).overlap ch sb i = raw.get (18 + i) 0#32 := by
  have hdiv : (18 * sb + i) / 18 = sb := by omega
  have hmod : (18 * sb + i) % 18 = i := by omega
  rw [overlapAdd_eq, overlapped_line (by omega), overlapped_overlap (by omega), olaLine, olaTail, if_pos hdiv, if_pos hdiv, hmod]
  exact ⟨rfl, rfl⟩

theorem overlapAdd_other {sb' : Nat} (h : sb' ≠ sb) (hi : i < 18) :
    (overlapAdd gr ch sb raw s).line gr ch (18 * sb' + i) = s.line gr ch (18 * sb' + i) ∧
      (overlapAdd gr ch sb raw s).overlap ch sb' i = s.overlap ch sb' i := by
  have hdiv : ¬(18 * sb' + i) / 18 = sb := by omega
  by_cases hn : 18 * sb' + i < 576
  · rw [overlapAdd_eq, overlapped_line hn, overlapped_overlap hn, olaLine, olaTail, if_neg hdiv, if_neg hdiv]
    exact ⟨rfl, rfl⟩
  · have hend := Nat.le_of_not_lt hn
    rw [State.line_of_le _ _ _ hend, State.line_of_le _ _ _ hend, State.overlap, State.overlap, Bank.get_of_le _ _ hend,
      Bank.get_of_le _ _ hend]
    exact ⟨rfl, rfl⟩

end

/-- Settles O47: `OLA` tabulates one subband's lines and tail anew (`overlapAdd_same`) and every other cell as it was
(`overlapAdd_other`). -/
theorem overlapAdd_adds_storedTail : Obligations.OverlapAdd := fun _ _ sb _ _ =>
  ⟨_, exec_ola, overlapped_eq, overlapped_otherLines, fun _ hi => overlapAdd_same sb.isLt hi, fun _ _ h hi => overlapAdd_other h hi,
    overlapped_otherStore⟩

/-- Line `n` after `HYB`, from the state before it. -/
def hybLine (s : State) (gr ch : Fin 2) (n : Nat) : F32 :=
  fAdd ((subbandRaw s gr ch (n / 18)).get (n % 18) 0#32) ((s.store.get ch).get n 0#32)

/-- Cell `n` of the tail after `HYB`. -/
def hybTail (s : State) (gr ch : Fin 2) (n : Nat) : F32 := (subbandRaw s gr ch (n / 18)).get (18 + n % 18) 0#32

/-- `s` with its first `k` subbands transformed. -/
def hybAfter (gr ch : Fin 2) (s : State) (k : Nat) : State :=
  s.overlapped gr ch (fun n => if n / 18 < k then hybLine s gr ch n else s.line gr ch n)
    (fun n => if n / 18 < k then hybTail s gr ch n else (s.store.get ch).get n 0#32)

section
variable {s : State} {gr ch : Fin 2} {k : Nat}

theorem hybAfter_zero : hybAfter gr ch s 0 = s := by
  simp only [hybAfter, Nat.not_lt_zero, if_false]
  exact overlapped_self

/-- A subband not yet transformed is transformed as it was at the start: no other subband's `OLA` reaches its lines. -/
theorem subbandRaw_hybAfter (hk : k < 32) : subbandRaw (hybAfter gr ch s k) gr ch k = subbandRaw s gr ch k := by
  have hlines : Bank.tab 18 (fun i => (hybAfter gr ch s k).line gr ch (18 * k + i)) = Bank.tab 18 fun i => s.line gr ch (18 * k + i) := by
    refine Bank.ext_get 0#32 fun i hi => ?_
    rw [Bank.get_tab _ _ hi, Bank.get_tab _ _ hi, hybAfter, overlapped_line (by omega), if_neg (by omega)]
  have hgran : (hybAfter gr ch s k).gran gr ch = s.gran gr ch := rfl
  simp only [subbandRaw, hlines, hgran]

theorem hybAfter_succ (hk : k < 32) :
    overlapAdd gr ch k (subbandRaw (hybAfter gr ch s k) gr ch k) (hybAfter gr ch s k) = hybAfter gr ch s (k + 1) := by
  rw [subbandRaw_hybAfter hk, overlapAdd_eq]
  refine overlapped_overlapped.trans (overlapped_congr (fun n hn => ?_) fun n hn => ?_)
  · rw [olaLine, hybAfter, overlapped_line hn]
    by_cases hsub : n / 18 = k
    · have hcell : 18 * k + n % 18 = n := by omega
      rw [if_pos hsub, if_pos (by omega), overlapped_overlap (by omega), hcell, if_neg (by omega), hybLine, hsub]
    · rw [if_neg hsub]
      exact if_congr (by omega) rfl rfl
  · rw [olaTail, hybAfter, overlapped_store, Bank.get_tab _ _ hn]
    by_cases hsub : n / 18 = k
    · rw [if_pos hsub, if_pos (by omega), hybTail, hsub]
    · rw [if_neg hsub]
      exact if_congr (by omega) rfl rfl

/-- The first `k` turns of `HYB`'s loop. -/
theorem foldl_overlapAdd (hk : k ≤ 32) :
    (List.range k).foldl (fun t sb => overlapAdd gr ch sb (subbandRaw t gr ch sb) t) s = hybAfter gr ch s k := by
  induction k with
  | zero => exact hybAfter_zero.symm
  | succ k ih => rw [List.range_succ, List.foldl_append, ih (by omega), List.foldl_cons, List.foldl_nil, hybAfter_succ (by omega)]

end

/-- What `HYB` leaves: every line and every cell of the tail new, each from the state before. -/
def hybridized (gr ch : Fin 2) (s : State) : State := (s.stage .hyb gr ch).overlapped gr ch (hybLine s gr ch) (hybTail s gr ch)

theorem opHyb_eq (gr ch : Fin 2) (s : State) : opHyb gr ch s = .ok () (hybridized gr ch s) := by
  rw [opHyb, foldl_overlapAdd le_rfl]
  refine congrArg (Res.ok ()) (overlapped_congr (fun n hn => ?_) fun n hn => ?_)
  · exact if_pos (by omega)
  · exact if_pos (by omega)

theorem exec_hyb_hybridized (gr ch : Fin 2) (s : State) : exec (.hyb gr ch) s = .next (hybridized gr ch s) := by
  rw [exec_hyb, execHyb, opHyb_eq, run_ok]

section
variable {s : State} {gr ch : Fin 2} {sb i : Nat}

theorem hybridized_line (hsb : sb < 32) (hi : i < 18) : (hybridized gr ch s).line gr ch (18 * sb + i) =
    fAdd ((subbandRaw s gr ch sb).get i 0#32) (s.overlap ch sb i) := by
  have hdiv : (18 * sb + i) / 18 = sb := by omega
  have hmod : (18 * sb + i) % 18 = i := by omega
  rw [hybridized, overlapped_line (by omega), hybLine, hdiv, hmod]
  rfl

theorem hybridized_overlap (hsb : sb < 32) (hi : i < 18) :
    (hybridized gr ch s).overlap ch sb i = (subbandRaw s gr ch sb).get (18 + i) 0#32 := by
  have hdiv : (18 * sb + i) / 18 = sb := by omega
  have hmod : (18 * sb + i) % 18 = i := by omega
  rw [hybridized, overlapped_overlap (by omega), hybTail, hdiv, hmod]

end

/-- Settles O48: each turn of the loop transforms a subband that no earlier turn has reached (`hybAfter_succ`). -/
theorem hybridSynthesis : Obligations.HybridSynthesis := fun gr ch s =>
  ⟨_, exec_hyb_hybridized gr ch s, rfl, overlapped_otherLines (s := s.stage .hyb gr ch),
    overlapped_otherStore (s := s.stage .hyb gr ch), fun _ _ hsb hi => ⟨hybridized_line hsb hi, hybridized_overlap hsb hi⟩⟩

/-! ### Silence (R233) -/

theorem zeros_get (m i : Nat) : (zeros m).get i 0#32 = 0#32 := Bank.get_tab_const m i 0#32

theorem imdctL_zero {x : Bank F32 18} (hx : ∀ m, IsZero (x.get m 0#32)) (bt : BlockType) {p : Nat} (hp : p < 36) :
    (imdctL x bt).get p 0#32 = 0#32 := by
  rw [imdctL_get x bt hp, fSum_zero fun m _ => fMul_zero_isZero (hx m) (cos36_finite m p)]
  exact fMul_pos_zero (imdctWin_finite bt p) (imdctWin_positive bt p)

theorem shortPart_zero {x : Bank F32 18} (hx : ∀ m, IsZero (x.get m 0#32)) (w p : Nat) : shortPart x w p = 0#32 := by
  rw [shortPart, fSum_zero fun m _ => fMul_zero_isZero (hx (w + 3 * m)) (cos12_finite m p)]
  exact fMul_pos_zero (imdctWin_finite .short p) (imdctWin_positive .short p)

theorem imdctS_zero {x : Bank F32 18} (hx : ∀ m, IsZero (x.get m 0#32)) {p : Nat} (hp : p < 36) : (imdctS x).get p 0#32 = 0#32 := by
  rw [imdctS_get x hp]
  refine foldl_keeps (P := (· = 0#32)) _ _ _ rfl fun w _ raw hraw => ?_
  rw [hraw, shortPart_zero hx, fAdd_zero (.inl rfl), ite_self]

section
variable {s : State} {gr ch : Fin 2}

/-- Lines that are zeros, of either sign, transform to positive zeros, whatever the block type. -/
theorem subbandRaw_zero (hzero : ∀ n, IsZero (s.line gr ch n)) (sb : Nat) {p : Nat} (hp : p < 36) :
    (subbandRaw s gr ch sb).get p 0#32 = 0#32 := by
  have hx (m : Nat) : IsZero ((Bank.tab 18 fun k => s.line gr ch (18 * sb + k)).get m 0#32) := by
    by_cases hm : m < 18
    · rw [Bank.get_tab _ _ hm]
      exact hzero _
    · exact .inl (Bank.get_of_le _ _ (Nat.le_of_not_lt hm))
  unfold subbandRaw
  dsimp only
  split
  · exact imdctS_zero hx hp
  · exact imdctL_zero hx _ hp

theorem hybridized_line_silent (hzero : ∀ n, IsZero (s.line gr ch n)) {n : Nat} (hn : n < 576) :
    (hybridized gr ch s).line gr ch n = fAdd 0#32 ((s.store.get ch).get n 0#32) := by
  rw [hybridized, overlapped_line hn, hybLine, subbandRaw_zero hzero _ (by omega)]

theorem hybridized_store_silent (hzero : ∀ n, IsZero (s.line gr ch n)) : (hybridized gr ch s).store.get ch = zeros 576 := by
  refine Bank.ext_get 0#32 fun n hn => ?_
  rw [hybridized, overlapped_store, Bank.get_tab _ _ hn, hybTail, subbandRaw_zero hzero _ (by omega), zeros_get]

end

/-- Settles O49: zero lines transform to zeros (`subbandRaw_zero`), so the output is the stored tail and zeros are stored. -/
theorem hybridSilence : Obligations.HybridSilence := by
  intro gr ch s hlines
  have hzero (n : Nat) : IsZero (s.line gr ch n) := .inl (by rw [State.line, hlines, zeros_get])
  refine ⟨_, exec_hyb_hybridized gr ch s, hybridized_store_silent hzero, fun sb i hsb hi => hybridized_line_silent hzero (by omega),
    fun hstore => Bank.ext_get 0#32 fun n hn => ?_⟩
  exact (hybridized_line_silent hzero hn).trans (by rw [hstore, zeros_get, fAdd_zero (.inl rfl)])

end Sys2Proof.Machine
end

section
/-! The silent frame (O58; 45_antialias_hybrid R233, 46_synthesis_pcm R259, 95_test_vectors S1). A zero image loads granules without
coded lines (`Uncoded`), parsing them zeroes every line, and each stage of reconstruction keeps the lines, `STORE` and `VVEC` zero
(`Silent`) while `SYNTH` writes zero bytes. -/

namespace Sys2Proof.Machine

open Sys2Proof.Claims

/-! ### Operations that complete -/

/-- The operation completes, in a state of which `P` holds. -/
def Res.Completes {α : Type} (P : State → Prop) : Res α → Prop
  | .ok _ t => P t
  | .raised _ _ => False

/-- Run from `s`, the operation completes in a state of which `P` holds; the facts `Z` of `s` still hold there, and those of `A` besides. -/
def Res.Gains {α ι : Type} (P : State → Prop) (Z : State → ι → Prop) (A : ι → Prop) (s : State) (r : Res α) : Prop :=
  r.Completes fun t => P t ∧ ∀ a, Z s a ∨ A a → Z t a

section
variable {α β ι : Type} {P Q : State → Prop} {Z : State → ι → Prop} {A B : ι → Prop} {s : State} {r : Res α}

theorem Res.Completes.exists_ok (h : r.Completes P) : ∃ v t, r = .ok v t ∧ P t := by
  cases r with
  | ok v t => exact ⟨v, t, rfl, h⟩
  | raised c t => exact h.elim

theorem Res.Completes.mono (h : r.Completes P) (hPQ : ∀ t, P t → Q t) : r.Completes Q := by
  cases r with
  | ok v t => exact hPQ t h
  | raised c t => exact h

theorem Res.Completes.andThen {k : α → State → Res β} (h : r.Completes P) (hk : ∀ v t, P t → (k v t).Completes Q) :
    (r.andThen k).Completes Q := by
  cases r with
  | ok v t => exact hk v t h
  | raised c t => exact h

theorem Res.Gains.mono (h : r.Gains P Z A s) (hAB : ∀ a, B a → A a) : r.Gains P Z B s :=
  Res.Completes.mono h fun _ ⟨hP, hZ⟩ => ⟨hP, fun a ha => hZ a (ha.imp_right (hAB a))⟩

theorem Res.Gains.andThen {k : α → State → Res β} (h : r.Gains P Z A s) (hk : ∀ v t, P t → (k v t).Gains P Z B t) :
    (r.andThen k).Gains P Z (fun a => A a ∨ B a) s :=
  Res.Completes.andThen h fun v t ⟨hP, hZ⟩ => Res.Completes.mono (hk v t hP) fun _ ⟨hP', hZ'⟩ =>
    ⟨hP', fun a ha => hZ' a ((or_assoc.2 ha).imp_left (hZ a))⟩

/-- After an operation that only keeps facts. -/
theorem Res.Gains.next {k : α → State → Res β} (h : r.Gains P Z (fun _ => False) s) (hk : ∀ v t, P t → (k v t).Gains P Z B t) :
    (r.andThen k).Gains P Z B s := (h.andThen hk).mono fun _ => .inr

theorem Res.Gains.forEach {κ : Type} {xs : List κ} {f : κ → State → Res Unit} {A : κ → ι → Prop} (h : P s)
    (hf : ∀ x ∈ xs, ∀ t, P t → (f x t).Gains P Z (A x) t) :
    (Machine.forEach xs f s).Gains P Z (fun a => ∃ x ∈ xs, A x a) s := by
  induction xs generalizing s with
  | nil => exact ⟨h, fun a ha => ha.elim id fun ⟨_, hx, _⟩ => absurd hx List.not_mem_nil⟩
  | cons x xs ih =>
    refine ((hf x List.mem_cons_self s h).andThen fun _ t ht => ih ht fun y hy => hf y (List.mem_cons_of_mem x hy)).mono fun a ha => ?_
    obtain ⟨y, hy, hya⟩ := ha
    rcases List.mem_cons.1 hy with rfl | hy
    · exact .inl hya
    · exact .inr ⟨y, hy, hya⟩

/-- A loop of operations that cannot raise is a fold. -/
theorem forEach_ok {κ : Type} (xs : List κ) (g : State → κ → State) (s : State) :
    forEach xs (fun x t => .ok () (g t x)) s = .ok () (xs.foldl g s) := by
  induction xs generalizing s with
  | nil => rfl
  | cons x xs ih => exact ih (g s x)

end

/-! ### Zeros in `F` -/

theorem IsZero.add {x y : F32} (hx : IsZero x) (hy : IsZero y) : IsZero (fAdd x y) := by
  rcases hx with rfl | rfl
  · exact .inl (fAdd_zero hy)
  · rcases hy with rfl | rfl
    · exact .inl (by decide +kernel)
    · exact .inr (by decide +kernel)

theorem IsZero.sub {x y : F32} (hx : IsZero x) (hy : IsZero y) : IsZero (fSub x y) := hx.add hy.neg

theorem fMul_isZero_zero {x y : F32} (hx : fFinite x = true) (hy : IsZero y) : IsZero (fMul x y) :=
  fMul_comm y x ▸ fMul_zero_isZero hy hx

theorem reqLine_isZero {x : F32} (hx : IsZero x) (e4 : Int) : reqLine x e4 = 0#32 := by
  rcases hx with rfl | rfl
  · exact reqLine_zero e4
  · have hint : fToInt 0x80000000#32 = some 0 := by decide +kernel
    rw [reqLine, hint]
    rfl

theorem pcmConvert_zero : pcmConvert 0#32 = 0#16 := by decide +kernel

/-! ### A frame without coded lines -/

/-- The registers a granule and channel have where its side information is zero. -/
def Gran.Blank (g : Gran) : Prop := ∃ c, g = { Gran.zero with count1 := c }

theorem Gran.Blank.isShort {g : Gran} (h : g.Blank) : g.isShort = false := by
  obtain ⟨c, rfl⟩ := h
  rfl

/-- What the parse of a frame with zero side information starts from and keeps. -/
structure Uncoded (h : Hdr) (s : State) : Prop where
  hdr : s.hdr = h
  store : s.store = .both (zeros 576)
  vvec : s.vvec = .both (zeros 1024)
  gran : ∀ g ∈ groupOrder h, (s.gran g.1 g.2).Blank

/-- The lines of a granule and channel are zeros, of either sign: `FINV` turns some into the negative one. -/
def SilentLines (s : State) (g : Fin 2 × Fin 2) : Prop := ∀ n, IsZero (s.line g.1 g.2 n)

/-- What every stage of the reconstruction of a silent frame keeps. -/
structure Silent (h : Hdr) (s : State) : Prop extends Uncoded h s where
  lines : ∀ g ∈ groupOrder h, SilentLines s g

section
variable {h : Hdr} {gr ch : Fin 2}

theorem mem_pair : ∀ i : Fin 2, i ∈ [0, 1] := by decide

theorem mem_groupOrder : (gr, ch) ∈ groupOrder h ↔ gr ∈ h.granules ∧ ch ∈ h.channels := by simp [groupOrder]

theorem granules_lsf (hlsf : h.lsf = true) : h.granules = [0] := by simp [Hdr.granules, Hdr.ngr, hlsf]

end

/-! ### Parsing (R150, R166) -/

section
variable {s : State} {gr ch : Fin 2}

theorem slens_blank (hb : (s.gran gr ch).Blank) : s.slens gr ch = (0, 0) := by
  obtain ⟨c, hc⟩ := hb
  rw [State.slens, hc]
  rfl

theorem longWidths_blank (hb : (s.gran gr ch).Blank) : (longWidths s gr ch).sum = 0 := by
  refine List.sum_eq_zero fun w hw => ?_
  obtain ⟨b, hlt, rfl⟩ := List.getElem_of_mem hw
  have hval := longWidths_getD s gr ch (b := b) (by rwa [longWidths_length] at hlt)
  rw [List.getD_eq_getElem _ _ hlt, slens_blank hb, ite_self, ite_self] at hval
  exact hval

/-- `SCF.M1` has no bit to read. -/
theorem opScfM1_blank (hb : (s.gran gr ch).Blank) :
    ∃ t, opScfM1 gr ch s = .ok s.bitpos t ∧ t = { s with seq := t.seq, bitpos := t.bitpos, scfL := t.scfL } := by
  have hfits : Fits (s.stage .scfM1 gr ch) (longWidths (s.stage .scfM1 gr ch) gr ch).sum := .inl (longWidths_blank hb)
  have hread := (scfM1Body_long (s := s.stage .scfM1 gr ch) hb.isShort).trans (scfM1Long_longAfter hfits)
  have hop : opScfM1 gr ch s = (scfM1Body gr ch (s.stage .scfM1 gr ch)).andThen fun _ t => .ok s.bitpos t := rfl
  exact ⟨_, by rw [hop, hread, andThen_ok], rfl⟩

theorem opScfM2_of_fits {n : Nat} (hn : scfClass (s.gran 0 ch) = n) (hfits : Fits s (lsfWidths n (s.nslens ch)).sum) :
    opScfM2 ch s = (distribute ch (lsfList ch n s) (lsfRead ch n s)).andThen fun _ t => .ok s.bitpos t := by
  rw [opScfM2_eq, hn, readList_lsfStart hfits, andThen_ok, lsfList]

/-- `SCF.M2` has no bit to read, and `PREFLAG` stays 0. -/
theorem opScfM2_blank (hb : (s.gran 0 ch).Blank) :
    ∃ t, opScfM2 ch s = .ok s.bitpos t ∧ t = { s with seq := t.seq, bitpos := t.bitpos, scfL := t.scfL } := by
  obtain ⟨c, hc⟩ := hb
  have hclass : scfClass (s.gran 0 ch) = 0 := by rw [hc]; rfl
  have hentry : s.nslens ch = ⟨[0, 0, 0, 0], 0, false⟩ := by
    rw [State.nslens, hc]
    exact (by decide : nslen2 0 = ⟨[0, 0, 0, 0], 0, false⟩)
  have hfits : Fits s (lsfWidths 0 (s.nslens ch)).sum := .inl (by rw [hentry]; decide)
  have hpre : { s.gran 0 ch with preflag := (s.nslens ch).preflag } = s.gran 0 ch := by rw [hentry, hc]; rfl
  have hsame : s.setGran 0 ch (s.gran 0 ch) = s := by simp only [State.setGran, State.gran, Two.set_get]
  have hstart : lsfStart ch s = s.stage .scfM2 0 ch :=
    (congrArg (fun g => (s.setGran 0 ch g).stage .scfM2 0 ch) hpre).trans (by rw [hsame])
  have hlist : (lsfList ch 0 s).length = 22 := lsfList_length (by decide) ch s
  refine ⟨listToLong ch (lsfList ch 0 s) (lsfRead ch 0 s), ?_, ?_⟩
  · rw [opScfM2_of_fits hclass hfits, distribute_long hlist, andThen_ok]
  · rw [listToLong, lsfRead, hstart]
    rfl

/-- The scale factors of a granule with zero side information complete, whatever the layout, and write `SCF_L` alone. -/
theorem scaleFactors_blank {h : Hdr} (hs : Uncoded h s) (hg : (gr, ch) ∈ groupOrder h) :
    ∃ start t, (if s.hdr.lsf then opScfM2 ch s else opScfM1 gr ch s) = .ok start t ∧
      t = { s with seq := t.seq, bitpos := t.bitpos, scfL := t.scfL } := by
  have hblank := hs.gran (gr, ch) hg
  by_cases hlsf : s.hdr.lsf = true
  · obtain rfl : gr = 0 := by simpa [granules_lsf (hs.hdr ▸ hlsf)] using (mem_groupOrder.1 hg).1
    obtain ⟨t, hop, ht⟩ := opScfM2_blank hblank
    exact ⟨_, t, by rw [if_pos hlsf, hop], ht⟩
  · obtain ⟨t, hop, ht⟩ := opScfM1_blank hblank
    exact ⟨_, t, by rw [if_neg hlsf, hop], ht⟩

/-- A granule without main data: its lines are zeroed, its registers stay blank. -/
theorem parseOne_blank {h : Hdr} (hs : Uncoded h s) (hg : (gr, ch) ∈ groupOrder h) :
    (parseOne gr ch s).Gains (Uncoded h) SilentLines (· = (gr, ch)) s := by
  have hblank := hs.gran (gr, ch) hg
  obtain ⟨start, u, hscf, hu⟩ := scaleFactors_blank hs hg
  have hgran (gr' ch' : Fin 2) : u.gran gr' ch' = s.gran gr' ch' := by rw [hu]; rfl
  have hempty : (u.gran gr ch).part23Length = 0 := by
    obtain ⟨c, hc⟩ := hblank
    rw [hgran, hc]
    rfl
  rw [parseOne, hscf, andThen_ok, opHufGranule_empty hempty]
  refine ⟨⟨?_, ?_, ?_, fun g hmem => ?_⟩, fun g hsilent n => ?_⟩
  · rw [hu]; exact hs.hdr
  · rw [hu]; exact hs.store
  · rw [hu]; exact hs.vvec
  · rw [State.gran_setGran]
    split
    · obtain ⟨c, hc⟩ := hblank
      exact ⟨0, by rw [hgran, hc]⟩
    · exact (hgran g.1 g.2).symm ▸ hs.gran g hmem
  · by_cases hsame : g = (gr, ch)
    · subst hsame
      exact .inl (line_setLines_zeros n)
    · have hkept := State.lines_setLines_other (u.stage .hufGranule gr ch) (zeros 576) fun k => hsame (Prod.ext k.1 k.2)
      have hlines : u.lines g.1 g.2 = s.lines g.1 g.2 := by rw [hu]; rfl
      exact (congrArg (fun v : Lines => IsZero (v.get n 0#32)) (hkept.trans hlines)).mpr (hsilent.resolve_right hsame n)

end

/-! ### The zero image (R96, R97) -/

/-- The frame-level fields of a zero image. -/
def zeroHead (h : Hdr) : SiHead :=
  if h.lsf then (if h.nch = 1 then .lsfMono 0 0 else .lsfStereo 0 0) else (if h.nch = 1 then .m1Mono 0 0 0 else .m1Stereo 0 0 0 0)

/-- A group of a zero image. -/
def zeroGroup (lsf : Bool) : SiGroup :=
  if lsf then .lsfOff ⟨0, 0, 0⟩ 0 ⟨0, 0, 0, 0, 0⟩ ⟨false, false⟩ else .m1Off ⟨0, 0, 0⟩ 0 ⟨0, 0, 0, 0, 0⟩ false ⟨false, false⟩

def zeroGroups (h : Hdr) : Groups := (groupOrder h).map fun g => (g, zeroGroup h.lsf)

theorem zeroGroups_keys (h : Hdr) : (zeroGroups h).map (·.1) = groupOrder h := by simp [zeroGroups, Function.comp_def]

theorem takeHead_zeroHead (h : Hdr) (r : List Bool) : takeHead h (siHeadBits (zeroHead h) ++ r) = some (zeroHead h, r) := by
  unfold takeHead zeroHead
  split
  · split
    · exact takeHeadLsfMono_bits 0 0 r
    · exact takeHeadLsfStereo_bits 0 0 r
  · split
    · exact takeHeadM1Mono_bits 0 0 0 r
    · exact takeHeadM1Stereo_bits 0 0 0 0 r

/-- The image of these fields is all zero bytes: computed for each of the four layouts. -/
theorem packBits_zero (h : Hdr) : packBits (siHeadBits (zeroHead h) ++ (zeroGroups h).bits) = List.replicate h.siSize 0#8 := by
  rw [zeroGroups, groupOrder_eq, zeroHead, Hdr.siSize]
  by_cases hnch : h.nch = 1
  · simp only [hnch, if_true]
    cases h.lsf <;> decide +kernel
  · simp only [hnch, if_false]
    cases h.lsf <;> decide +kernel

theorem unpackSi_zero (h : Hdr) (x : SideInfo) :
    unpackSi h (List.replicate h.siSize 0#8) x = (x.writeHead (zeroHead h)).writeGroups (zeroGroups h) := by
  have hlayout : ∀ e ∈ zeroGroups h, isM1 e.2 = !h.lsf := fun e he => by
    obtain ⟨g, -, rfl⟩ := List.mem_map.1 he
    cases h.lsf <;> rfl
  rw [← packBits_zero, unpackSi_packBits (takeHead_zeroHead h) hlayout (zeroGroups_keys h).symm]

theorem unpackSi_zero_mainDataBegin (h : Hdr) (x : SideInfo) :
    (unpackSi h (List.replicate h.siSize 0#8) x).mainDataBegin = 0 := by
  rw [unpackSi_zero, (SideInfo.writeGroups_head _ _).1, zeroHead]
  split_ifs <;> rfl

theorem zeroGroup_blank (c : BitVec 10) (lsf : Bool) : (groupRegs c (zeroGroup lsf)).Blank := ⟨c, by cases lsf <;> rfl⟩

theorem unpackSi_zero_blank {h : Hdr} (x : SideInfo) {g : Fin 2 × Fin 2} (hg : g ∈ groupOrder h) :
    ((unpackSi h (List.replicate h.siSize 0#8) x).granAt g.1 g.2).Blank := by
  have hmem : (g, zeroGroup h.lsf) ∈ zeroGroups h := List.mem_map.2 ⟨g, hg, rfl⟩
  rw [unpackSi_zero, SideInfo.writeGroups_granAt (zeroGroups_keys h ▸ groupOrder_nodup h) hmem]
  exact zeroGroup_blank _ _

/-! ### The stages of a silent frame -/

section
variable {h : Hdr} {s : State} {gr ch : Fin 2}

theorem Silent.stage (hs : Silent h s) (op : Opid) (gr ch : Fin 2) : Silent h (s.stage op gr ch) :=
  ⟨⟨hs.hdr, hs.store, hs.vvec, hs.gran⟩, hs.lines⟩

theorem Silent.setLines {f : Nat → F32} (hs : Silent h s) (hf : ∀ n, IsZero (f n)) : Silent h (s.setLines gr ch (.tab 576 f)) := by
  refine ⟨⟨hs.hdr, hs.store, hs.vvec, hs.gran⟩, fun g hg n => ?_⟩
  by_cases hsame : g.1 = gr ∧ g.2 = ch
  · rw [hsame.1, hsame.2]
    by_cases hn : n < 576
    · rw [State.line_setLines_tab _ _ _ _ hn]
      exact hf n
    · exact .inl (State.line_of_le _ _ _ (Nat.le_of_not_lt hn))
  · rw [State.line, State.lines_setLines_other _ _ hsame]
    exact hs.lines g hg n

theorem Silent.retabled {op : Opid} {f : Nat → F32} (hs : Silent h s) (hf : ∀ n, IsZero (f n)) : Silent h (s.retabled op gr ch f) :=
  (hs.stage op gr ch).setLines hf

theorem Silent.pairTabled {f : Nat → F32 × F32} (hs : Silent h s) (hf : ∀ n, IsZero (f n).1 ∧ IsZero (f n).2) :
    Silent h (s.pairTabled gr f) :=
  ((hs.stage .stereo gr 0).setLines fun n => (hf n).1).setLines fun n => (hf n).2

theorem reqValue_silent (hz : SilentLines s (gr, ch)) (n : Nat) : IsZero (reqValue s gr ch n) := by
  unfold reqValue
  split
  · exact hz n
  · exact .inl (reqLine_isZero (hz n) _)
  · exact .inl (reqLine_isZero (hz n) _)

theorem reordValue_silent (hz : SilentLines s (gr, ch)) (n : Nat) : IsZero (reordValue s gr ch n) := by
  unfold reordValue
  dsimp only
  split
  · exact hz _
  · exact hz n

theorem aliasValue_silent (hz : SilentLines s (gr, ch)) (n : Nat) : IsZero (aliasValue s gr ch n) := by
  have hcs (m : Nat) {i : Nat} (hi : i < 8) : IsZero (fMul (s.line gr ch m) (tabCs i)) := fMul_zero_isZero (hz m) (tabCs_finite i hi).1
  have hca (m : Nat) {i : Nat} (hi : i < 8) : IsZero (fMul (s.line gr ch m) (tabCa i)) := fMul_zero_isZero (hz m) (tabCa_finite i hi).1
  unfold aliasValue
  dsimp only
  split
  next h => exact (hcs _ h.1).add (hca _ h.1)
  next =>
    split
    next h => exact (hcs _ (by omega)).sub (hca _ (by omega))
    next => exact hz n

theorem finvValue_silent (hz : SilentLines s (gr, ch)) (n : Nat) : IsZero (finvValue s gr ch n) := by
  unfold finvValue
  split
  · exact (hz n).neg
  · exact hz n

theorem stereoValue_silent (h0 : SilentLines s (gr, 0)) (h1 : SilentLines s (gr, 1)) (n : Nat) :
    IsZero (stereoValue s gr n).1 ∧ IsZero (stereoValue s gr n).2 := by
  unfold stereoValue
  dsimp only
  split
  next p _ => exact ⟨fMul_zero_isZero (h0 n) (isRatio_finite p).1, fMul_zero_isZero (h0 n) (isRatio_finite p).2⟩
  next =>
    split
    · exact ⟨fMul_zero_isZero ((h0 n).add (h1 n)) invSqrt2_finite.1, fMul_zero_isZero ((h0 n).sub (h1 n)) invSqrt2_finite.1⟩
    · exact ⟨h0 n, h1 n⟩

/-- A byte of `PCM` that holds zero. -/
def ZeroByte (s : State) (a : Nat) : Prop := s.pcm.read a = some 0#8

/-- A stage that leaves the frame silent and `PCM` as it is. -/
theorem silent_gains {t : State} (ht : Silent h t) (hpcm : t.pcm = s.pcm) :
    (Res.ok () t).Gains (Silent h) ZeroByte (fun _ => False) s :=
  ⟨ht, fun a ha => (congrArg (fun m : Memory => m.read a = some 0#8) hpcm).mpr (ha.resolve_right id)⟩

theorem beforeStereo_silent (hs : Silent h s) (hg : (gr, ch) ∈ groupOrder h) :
    (beforeStereo gr ch s).Gains (Silent h) ZeroByte (fun _ => False) s := by
  have hreq : (opReq gr ch s).Gains (Silent h) ZeroByte (fun _ => False) s :=
    silent_gains (hs.retabled (op := .req) (reqValue_silent (hs.lines _ hg))) rfl
  exact hreq.next fun _ t ht => silent_gains (ht.retabled (op := .reord) (reordValue_silent (ht.lines _ hg))) rfl

theorem opStereo_silent (hs : Silent h s) (hgr : gr ∈ h.granules) : (opStereo gr s).Gains (Silent h) ZeroByte (fun _ => False) s := by
  by_cases hj : s.hdr.mode = .joint
  · have hg (ch : Fin 2) : (gr, ch) ∈ groupOrder h := by
      have hboth : h.channels = [0, 1] := by simp [Hdr.channels, Hdr.nch, ← hs.hdr, hj]
      refine mem_groupOrder.2 ⟨hgr, ?_⟩
      rw [hboth]
      exact mem_pair ch
    have hlong (ch : Fin 2) : (s.gran gr ch).isShort = false := (hs.gran _ (hg ch)).isShort
    have hsame := not_stereoMismatch ((hlong 0).trans (hlong 1).symm) fun hshort => absurd ((hlong 0).symm.trans hshort) Bool.false_ne_true
    rw [opStereo_eq, if_neg fun k => hsame k.2]
    exact silent_gains (hs.pairTabled (stereoValue_silent (hs.lines _ (hg 0)) (hs.lines _ (hg 1)))) rfl
  · rw [show opStereo gr s = .ok () (s.stage .stereo gr 0) from if_pos hj]
    exact silent_gains (hs.stage .stereo gr 0) rfl

theorem opHyb_silent (hs : Silent h s) (hg : (gr, ch) ∈ groupOrder h) :
    (opHyb gr ch s).Gains (Silent h) ZeroByte (fun _ => False) s := by
  have hz : ∀ n, IsZero (s.line gr ch n) := hs.lines _ hg
  rw [opHyb_eq]
  refine silent_gains ⟨⟨hs.hdr, Two.ext_get fun ch' => ?_, hs.vvec, hs.gran⟩, fun g hg' n => ?_⟩ rfl
  · rw [Two.get_both]
    by_cases hch : ch' = ch
    · rw [hch, hybridized_store_silent hz]
    · rw [hybridized, overlapped_otherStore ch' hch, State.stage_store, hs.store, Two.get_both]
  · by_cases hsame : g.1 = gr ∧ g.2 = ch
    · rw [hsame.1, hsame.2]
      by_cases hn : n < 576
      · rw [hybridized_line_silent hz hn, hs.store, Two.get_both, zeros_get]
        exact .inl (fAdd_zero (.inl rfl))
      · exact .inl (State.line_of_le _ _ _ (Nat.le_of_not_lt hn))
    · rw [State.line, hybridized, overlapped_otherLines g.1 g.2 hsame]
      exact hs.lines g hg' n

/-! ### `SYNTH` of a silent granule (R250 to R259) -/

/-- The bytes of one sample on the output channels of `ch` (20_memory R69, R258). -/
def SampleBytes (h : Hdr) (gr ch : Fin 2) (t a : Nat) : Prop := ∃ c ∈ outputs h ch, a = pcmBase gr t c ∨ a = pcmBase gr t c + 1

/-- The bytes of one granule on the output channels of `ch`. -/
def ChannelBytes (h : Hdr) (gr ch : Fin 2) (a : Nat) : Prop := ∃ t < 576, SampleBytes h gr ch t a

theorem packSample_silent (hs : Silent h s) (t : Nat) :
    (Res.ok () (packSample gr ch t 0#32 s)).Gains (Silent h) ZeroByte (SampleBytes h gr ch t) s := by
  refine ⟨⟨⟨hs.hdr, hs.store, hs.vvec, hs.gran⟩, hs.lines⟩, fun a ha => ?_⟩
  by_cases hhit : SampleBytes h gr ch t a
  · obtain ⟨c, hc, rfl | rfl⟩ := hhit
    · exact (packSample_hit gr ch t 0#32 s c (hs.hdr ▸ hc)).1.trans (by rw [pcmConvert_zero]; rfl)
    · exact (packSample_hit gr ch t 0#32 s c (hs.hdr ▸ hc)).2.trans (by rw [pcmConvert_zero]; rfl)
  · have hmiss : ∀ c ∈ outputs s.hdr ch, a ≠ pcmBase gr t c ∧ a ≠ pcmBase gr t c + 1 := fun c hc =>
      not_or.1 fun k => hhit ⟨c, hs.hdr ▸ hc, k⟩
    exact (packSample_miss gr ch t 0#32 s a hmiss).trans (ha.resolve_right hhit)

theorem hist_silent (hs : Silent h s) (ch : Fin 2) (j : Nat) : s.hist ch j = 0#32 := by
  rw [State.hist, hs.vvec, Two.get_both, zeros_get]

/-- The history stays zero. -/
theorem setHist_silent (hs : Silent h s) (hg : (gr, ch) ∈ groupOrder h) (ss : Nat) : s.setHist ch (synthHistory s gr ch ss) = s := by
  have hzeros : synthHistory s gr ch ss = s.vvec.get ch := by
    refine Bank.ext_get 0#32 fun j hj => ?_
    rw [synthHistory, Bank.get_tab _ _ hj, show (s.vvec.get ch).get j 0#32 = 0#32 from hist_silent hs ch j]
    split
    · exact fSum_zero fun k _ => fMul_isZero_zero (nwin_finite j k) (hs.lines _ hg _)
    · exact hist_silent hs ch _
  rw [hzeros, State.setHist, Two.set_get]

theorem synthSample_silent (hs : Silent h s) (ch : Fin 2) (j : Nat) : synthSample s ch j = 0#32 := by
  refine fSum_zero fun i _ => fMul_zero_isZero (.inl ?_) (synthD_finite _)
  unfold gather
  split
  · exact hist_silent hs ch _
  · exact hist_silent hs ch _

theorem synthStep_silent (hs : Silent h s) (hg : (gr, ch) ∈ groupOrder h) (ss : Nat) :
    (Res.ok () (synthStep gr ch ss s)).Gains (Silent h) ZeroByte
      (fun a => ∃ j ∈ List.range 32, SampleBytes h gr ch (32 * ss + j) a) s := by
  rw [synthStep, setHist_silent hs hg, ← forEach_ok]
  refine Res.Gains.forEach hs fun j _ t ht => ?_
  rw [synthSample_silent ht]
  exact packSample_silent ht _

theorem opSynth_silent (hs : Silent h s) (hg : (gr, ch) ∈ groupOrder h) :
    (opSynth gr ch s).Gains (Silent h) ZeroByte (ChannelBytes h gr ch) s := by
  rw [opSynth, ← forEach_ok]
  have hloop := Res.Gains.forEach (xs := List.range 18) (hs.stage .synth gr ch) fun ss _ t ht => synthStep_silent ht hg ss
  refine hloop.mono fun a ⟨t, ht, ha⟩ => ⟨t / 32, List.mem_range.2 (by omega), t % 32, List.mem_range.2 (by omega), ?_⟩
  rwa [Nat.div_add_mod]

/-! ### The whole frame -/

theorem afterStereo_silent (hs : Silent h s) (hg : (gr, ch) ∈ groupOrder h) :
    (afterStereo gr ch s).Gains (Silent h) ZeroByte (ChannelBytes h gr ch) s := by
  have halias : (opAlias gr ch s).Gains (Silent h) ZeroByte (fun _ => False) s :=
    silent_gains (hs.retabled (op := .antialias) (aliasValue_silent (hs.lines _ hg))) rfl
  have hfinv (t : State) (ht : Silent h t) : (opFinv gr ch t).Gains (Silent h) ZeroByte (fun _ => False) t :=
    silent_gains (ht.retabled (op := .finv) (finvValue_silent (ht.lines _ hg))) rfl
  exact halias.next fun _ t ht => (opHyb_silent ht hg).next fun _ t ht => (hfinv t ht).next fun _ t ht => opSynth_silent ht hg

theorem reconstructOne_silent (hs : Silent h s) (hgr : gr ∈ h.granules) :
    (reconstructOne gr s).Gains (Silent h) ZeroByte (fun a => ∃ ch ∈ h.channels, ChannelBytes h gr ch a) s := by
  have hbefore : (forEach h.channels (beforeStereo gr) s).Gains (Silent h) ZeroByte (fun _ => False) s :=
    (Res.Gains.forEach hs fun ch hch t ht => beforeStereo_silent ht (mem_groupOrder.2 ⟨hgr, hch⟩)).mono fun _ => False.elim
  rw [reconstructOne, hs.hdr]
  refine hbefore.next fun _ t ht => (opStereo_silent ht hgr).next fun _ u hu => ?_
  rw [hu.hdr]
  exact Res.Gains.forEach hu fun ch hch v hv => afterStereo_silent hv (mem_groupOrder.2 ⟨hgr, hch⟩)

theorem reconstruct_silent (hs : Silent h s) : (reconstruct s).Gains (Silent h) ZeroByte
    (fun a => ∃ gr ∈ h.granules, ∃ ch ∈ h.channels, ChannelBytes h gr ch a) s := by
  rw [reconstruct, hs.hdr]
  exact Res.Gains.forEach hs fun gr hgr t ht => reconstructOne_silent ht hgr

/-- The samples of a frame fill `PCM` (20_memory R60, R69). -/
theorem channelBytes_cover {a : Nat} (ha : a < h.pcmLen) : ∃ gr ∈ h.granules, ∃ ch ∈ h.channels, ChannelBytes h gr ch a := by
  have hgr : a / 2304 < 2 ∧ (h.ngr = 1 → a / 2304 = 0) := by
    unfold Hdr.pcmLen Hdr.ngr at ha
    unfold Hdr.ngr
    split_ifs at ha ⊢ <;> omega
  have hbyte (c : Fin 2) (hc : c.val = a / 2 % 2) : a = pcmBase ⟨a / 2304, hgr.1⟩ (a % 2304 / 4) c ∨
      a = pcmBase ⟨a / 2304, hgr.1⟩ (a % 2304 / 4) c + 1 := by
    simp only [pcmBase_eq, hc]
    omega
  refine ⟨⟨a / 2304, hgr.1⟩, ?_, ?_⟩
  · unfold Hdr.granules
    split
    next hone => exact List.mem_singleton.2 (Fin.ext (hgr.2 hone))
    next => exact mem_pair _
  · refine ⟨if h.nch = 1 then 0 else ⟨a / 2 % 2, by omega⟩, ?_, a % 2304 / 4, by omega, ⟨a / 2 % 2, by omega⟩, ?_, hbyte _ rfl⟩
    · unfold Hdr.channels
      split
      · exact List.mem_singleton.2 rfl
      · exact mem_pair _
    · unfold outputs
      split
      · exact mem_pair _
      · exact List.mem_singleton.2 rfl

theorem parseMain_silent (hs : Uncoded h s) : (parseMain s).Completes (Silent h) := by
  have hloop := Res.Gains.forEach (xs := groupOrder h) hs fun g hg t ht => parseOne_blank (gr := g.1) (ch := g.2) ht hg
  rw [parseMain, hs.hdr]
  exact Res.Completes.mono hloop fun t ⟨ht, hlines⟩ => ⟨ht, fun g hg => hlines g (.inr ⟨g, hg, rfl⟩)⟩

theorem decodeMain_silent (hs : Uncoded h s) : (decodeMain s).Completes fun t => Silent h t ∧ ∀ a, a < h.pcmLen → ZeroByte t a := by
  have hclear : (opScfClear s).Completes (Uncoded h) := ⟨hs.hdr, hs.store, hs.vvec, hs.gran⟩
  exact hclear.andThen fun _ t ht => (parseMain_silent ht).andThen fun _ u hu =>
    Res.Completes.mono (reconstruct_silent hu) fun v ⟨hv, hbytes⟩ => ⟨hv, fun a ha => hbytes a (.inr (channelBytes_cover ha))⟩

end

theorem pcmBytes_zero {m : Memory} {n : Nat} (hm : ∀ a, a < n → m.read a = some 0#8) : pcmBytes m n = List.replicate n 0#8 :=
  (List.filterMap_eq_map_iff_forall_eq_some.2 fun a ha => hm a (List.mem_range.1 ha)).trans (by rw [List.map_const', List.length_range])

/-- Settles O58: zero side information leaves nothing to decode (`parseMain_silent`), and reconstruction keeps the silence while it
writes every byte of the granules (`reconstruct_silent`). -/
theorem silentFrame : Obligations.SilentFrame := by
  intro r s hfault hstore hvvec himage hmain hmax hframe
  have hlen : r.siImage.length = r.hdr.siSize := by rw [himage, List.length_replicate]
  have hwf : r.wf = true := by simp [FrameRec.wf, hlen, ← hmain]
  have hmdb : (unpackSi r.hdr r.siImage s.si).mainDataBegin = 0 := himage ▸ unpackSi_zero_mainDataBegin r.hdr s.si
  have hhistory : (unpackSi r.hdr r.siImage s.si).mainDataBegin.toNat ≤ s.rsv.length := by rw [hmdb]; exact Nat.zero_le _
  have hsize : 0 ≤ r.hdr.mainSize ∧ r.hdr.mainSize ≤ 1500 := by omega
  have hrun := opFrame_of_checks (s := frameSetup r s) hframe hlen.ge hsize hmain.ge hhistory
  have hstart : Uncoded r.hdr (spliced r.main (loaded r.siImage (frameSetup r s))) :=
    ⟨rfl, hstore, hvvec, fun g hg => himage ▸ unpackSi_zero_blank s.si hg⟩
  have hrsv : spliceBytes r.main (loaded r.siImage (frameSetup r s)) = r.main := by
    have hzero : (loaded r.siImage (frameSetup r s)).si.mainDataBegin = 0 := hmdb
    rw [spliceBytes, hzero]
    exact congrArg (· ++ r.main) List.drop_length
  obtain ⟨_, t, hend, hsilent, hbytes⟩ := (decodeMain_silent hstart).exists_ok
  have hframed := opFrame_framed r (frameSetup r s)
  rw [hrun, hend] at hframed
  obtain ⟨hstatus, -⟩ := State.control_eq hframed.1
  have hpcm : pcmBytes t.pcm t.hdr.pcmLen = List.replicate r.hdr.pcmLen 0#8 := by
    rw [hsilent.hdr, pcmBytes_zero hbytes]
  refine ⟨frameEnd t, ?_, congrArg CmdOutcome.pcm hpcm, ?_, (decodeMain_ok hend).1.trans hrsv, hsilent.store, hsilent.vvec⟩
  · rw [exec_frame, execFrame_of_wf hwf hfault, hrun, hend, settle_ok]
  · exact (congrArg Status.endPcm hstatus).trans (congrArg (Status.mk · false true) hfault)

end Sys2Proof.Machine
end

section
/-! Synthesis and PCM (O51 to O53; 46_synthesis_pcm R250 to R258): `PcmConvert` as the nearest integer clipped, the two bytes of one
sample, and `SYNTH` as one run of stores (`State.packed`) behind the new history (`synthAfter`). -/

namespace Sys2Proof.Machine

open Sys2Proof.Claims

/-! ### `PcmConvert` (R256) -/

/-- Adding half a unit and rounding down gives the nearest integer, a tie away from zero. -/
theorem abs_sub_round (u : Nat) :
    2 * |(u : Int) - ((2 * u + 2 ^ 149) / 2 ^ 150 : Nat) * (2 ^ 149 : Int)| ≤ 2 ^ 149 ∧
      (2 * |(u : Int) - ((2 * u + 2 ^ 149) / 2 ^ 150 : Nat) * (2 ^ 149 : Int)| = 2 ^ 149 →
        |(u : Int)| < |((2 * u + 2 ^ 149) / 2 ^ 150 : Nat) * (2 ^ 149 : Int)|) := by
  rw [abs_of_nonneg (by omega : (0 : Int) ≤ u), abs_of_nonneg (by omega : 0 ≤ ((2 * u + 2 ^ 149) / 2 ^ 150 : Nat) * (2 ^ 149 : Int))]
  rcases abs_cases ((u : Int) - ((2 * u + 2 ^ 149) / 2 ^ 150 : Nat) * (2 ^ 149 : Int)) with ⟨habs, _⟩ | ⟨habs, _⟩
  · rw [habs]
    omega
  · rw [habs]
    omega

theorem nearest_nearestAway (y : F32) : NearestAway y (nearest y) := by
  unfold NearestAway fInt nearest
  dsimp only
  split
  · rw [neg_mul, ← neg_sub', abs_neg, abs_neg, abs_neg]
    exact abs_sub_round _
  · exact abs_sub_round _

theorem clip16_eq (n : Int) : clip16 n = max (-32768) (min 32767 n) := by
  unfold clip16
  split_ifs <;> omega

theorem toInt_clip16 (n : Int) : (BitVec.ofInt 16 (clip16 n)).toInt = clip16 n := by
  have hrange : -32768 ≤ clip16 n ∧ clip16 n ≤ 32767 := by
    rw [clip16_eq]
    omega
  exact BitVec.toInt_ofInt_eq_self (by decide) hrange.1 (by omega)

theorem exec_pcmConvert_eq (x : F32) (s : State) :
    exec (.pcmConvert x) s = .next { s with ret := .ints [(pcmConvert x).toInt] } := rfl

/-- A value of no units is one of the two zeros. -/
theorem isZero_of_fUnits {x : F32} (hx : fUnits x = 0) : IsZero x := by
  unfold fUnits at hx
  split at hx
  next hexp =>
    rw [fExp, BitVec.extractLsb'_toNat, Nat.shiftRight_eq_div_pow] at hexp
    rw [fFrac, BitVec.extractLsb'_toNat, Nat.shiftRight_zero] at hx
    rw [IsZero, ← BitVec.toNat_inj, ← BitVec.toNat_inj]
    have := x.isLt
    simp only [BitVec.toNat_ofNat]
    omega
  next => exact absurd hx (Nat.mul_pos (by omega) (Nat.two_pow_pos _)).ne'

theorem pcmConvert_isZero {x : F32} (hx : IsZero x) : pcmConvert x = 0#16 :=
  hx.cases (P := fun x => pcmConvert x = 0#16) pcmConvert_zero (by decide +kernel)

/-- Settles O51: `nearest` rounds to nearest, ties away (`nearest_nearestAway`), and a clipped integer survives its 16 bits
(`toInt_clip16`). -/
theorem pcmConversion : Obligations.PcmConversion := by
  refine fun x s => ⟨fun hfinite => ⟨_, nearest_nearestAway _, ?_⟩, fun hzero _ => ?_⟩
  · have hsample : pcmConvert x = BitVec.ofInt 16 (clip16 (nearest (fMul x (fOfInt 32767)))) := if_pos hfinite
    rw [exec_pcmConvert_eq, hsample, toInt_clip16, clip16_eq]
  · rw [exec_pcmConvert_eq, pcmConvert_isZero (isZero_of_fUnits hzero)]
    rfl

/-! ### `PCM.PACK` (R257, R258) -/

/-- The low byte of a sample is its value modulo 256. -/
theorem lowByte_eq (u : BitVec 16) : u.extractLsb' 0 8 = BitVec.ofInt 8 u.toInt := by
  refine BitVec.eq_of_toNat_eq ?_
  rw [BitVec.extractLsb'_toNat, BitVec.toNat_ofInt, BitVec.toInt_eq_toNat_cond, Nat.shiftRight_zero]
  split <;> omega

/-- The high byte of a sample is its value's quotient by 256, rounded down. -/
theorem highByte_eq (u : BitVec 16) : u.extractLsb' 8 8 = BitVec.ofInt 8 (u.toInt / 256) := by
  refine BitVec.eq_of_toNat_eq ?_
  rw [BitVec.extractLsb'_toNat, BitVec.toNat_ofInt, BitVec.toInt_eq_toNat_cond, Nat.shiftRight_eq_div_pow]
  split <;> omega

theorem mem_outputs {s : State} {ch c : Fin 2} : c ∈ outputs s.hdr ch ↔ OutputOf s ch c := by
  unfold outputs OutputOf Hdr.nch
  by_cases hmode : s.hdr.mode = .single
  · simp only [hmode, if_true, true_or, iff_true]
    exact mem_pair c
  · simp [hmode]

/-- Settles O52: `packSample_hit` and `packSample_miss`, with the sample's bytes read off the integer `PcmConvert` returns. -/
theorem pcmPack : Obligations.PcmPack := by
  refine fun gr ch ss i x s => ⟨_, _, exec_pcmPack, rfl, exec_pcmConvert_eq x s, fun c hc => ?_, fun a ha => ?_⟩
  · rw [← lowByte_eq, ← highByte_eq]
    exact packSample_hit gr ch _ x s c (mem_outputs.2 hc)
  · exact packSample_miss gr ch _ x s a fun c hc => ha c (mem_outputs.1 hc)

/-! ### A run of samples (R255, R258) -/

/-- `s` with the first `n` samples `x` of a granule stored. -/
def State.packed (s : State) (gr ch : Fin 2) (x : Nat → F32) (n : Nat) : State :=
  (List.range n).foldl (fun t i => packSample gr ch i (x i) t) s

section
variable {s : State} {gr ch : Fin 2} {x : Nat → F32} {n : Nat}

theorem packed_succ : s.packed gr ch x (n + 1) = packSample gr ch n (x n) (s.packed gr ch x n) := by
  rw [State.packed, List.range_succ, List.foldl_append, List.foldl_cons, List.foldl_nil, State.packed]

theorem packed_eq : s.packed gr ch x n = { s with pcm := (s.packed gr ch x n).pcm } := by
  induction n with
  | zero => rfl
  | succ n ih =>
    rw [packed_succ, ih]
    rfl

/-- The history and `PCM` are written apart from each other. -/
theorem packed_setHist (v : History) : (s.packed gr ch x n).setHist ch v = (s.setHist ch v).packed gr ch x n := by
  induction n with
  | zero => rfl
  | succ n ih =>
    rw [packed_succ, packed_succ, ← ih]
    rfl

theorem packed_hdr : (s.packed gr ch x n).hdr = s.hdr := by rw [packed_eq]

theorem packed_vvec : (s.packed gr ch x n).vvec = s.vvec := by rw [packed_eq]

theorem packed_xr : (s.packed gr ch x n).xr = s.xr := by rw [packed_eq]

/-- Bytes that no sample of the run has are unchanged. -/
theorem packed_miss {a : Nat} (h : ∀ t < n, ∀ c, OutputOf s ch c → a ≠ pcmBase gr t c ∧ a ≠ pcmBase gr t c + 1) :
    (s.packed gr ch x n).pcm.read a = s.pcm.read a := by
  induction n with
  | zero => rfl
  | succ n ih =>
    rw [packed_succ, packSample_miss, ih fun t ht => h t (by omega)]
    intro c hc
    rw [packed_hdr] at hc
    exact h n (by omega) c (mem_outputs.1 hc)

/-- Each sample of the run stands at its bytes: no later one reaches them. -/
theorem packed_hit {t : Nat} {c : Fin 2} (ht : t < n) (hc : OutputOf s ch c) :
    (s.packed gr ch x n).pcm.read (pcmBase gr t c) = some ((pcmConvert (x t)).extractLsb' 0 8) ∧
    (s.packed gr ch x n).pcm.read (pcmBase gr t c + 1) = some ((pcmConvert (x t)).extractLsb' 8 8) := by
  induction n with
  | zero => omega
  | succ n ih =>
    rw [packed_succ]
    by_cases hlast : t = n
    · subst hlast
      exact packSample_hit gr ch t (x t) _ c (by rw [packed_hdr]; exact mem_outputs.2 hc)
    · have hkeep (a : Nat) (ha : a = pcmBase gr t c ∨ a = pcmBase gr t c + 1) :
          (packSample gr ch n (x n) (s.packed gr ch x n)).pcm.read a = (s.packed gr ch x n).pcm.read a := by
        refine packSample_miss _ _ _ _ _ _ fun d _ => ?_
        simp only [pcmBase_eq] at ha ⊢
        omega
      rw [hkeep _ (.inl rfl), hkeep _ (.inr rfl)]
      exact ih (by omega)

end

/-! ### One step of `SYNTH` (R250 to R255) -/

/-- Sample `t` of a granule. -/
def granuleSample (s : State) (gr ch : Fin 2) (t : Nat) : F32 := sampleValue s gr ch (t / 32) (t % 32)

/-- `s` after `k` steps of `SYNTH`: the history of `k` steps, and `32*k` samples stored. -/
def synthAfter (gr ch : Fin 2) (s : State) (k : Nat) : State :=
  ((s.stage .synth gr ch).setHist ch (.tab 1024 (historyAfter s gr ch k))).packed gr ch (granuleSample s gr ch) (32 * k)

section
variable {s : State} {gr ch : Fin 2} {k : Nat}

theorem synthAfter_zero : synthAfter gr ch s 0 = s.stage .synth gr ch := by
  have hvvec : Bank.tab 1024 (historyAfter s gr ch 0) = (s.stage .synth gr ch).vvec.get ch := Bank.tab_get _ _
  rw [synthAfter, hvvec, State.setHist, Two.set_get]
  rfl

theorem synthAfter_vvec : (synthAfter gr ch s k).vvec = s.vvec.set ch (.tab 1024 (historyAfter s gr ch k)) := packed_vvec

theorem synthAfter_eq : synthAfter gr ch s k =
    { s with seq := ⟨.synth, gr, ch⟩, vvec := (synthAfter gr ch s k).vvec, pcm := (synthAfter gr ch s k).pcm } := by
  rw [synthAfter_vvec]
  exact packed_eq

theorem synthAfter_hist {j : Nat} (hj : j < 1024) : (synthAfter gr ch s k).hist ch j = historyAfter s gr ch k j := by
  rw [State.hist, synthAfter_vvec, Two.get_set_same, Bank.get_tab _ _ hj]

/-- The shift and the matrixing of step `k`. -/
theorem synthHistory_synthAfter : synthHistory (synthAfter gr ch s k) gr ch k = .tab 1024 (historyAfter s gr ch (k + 1)) := by
  have hxr : (synthAfter gr ch s k).xr = s.xr := packed_xr
  refine Bank.ext_get 0#32 fun j hj => ?_
  rw [synthHistory, Bank.get_tab _ _ hj, Bank.get_tab _ _ hj, historyAfter, synthAfter_hist (by omega)]
  simp only [State.line_congr hxr]

theorem setHist_synthAfter : (synthAfter gr ch s k).setHist ch (.tab 1024 (historyAfter s gr ch (k + 1))) =
    ((s.stage .synth gr ch).setHist ch (.tab 1024 (historyAfter s gr ch (k + 1)))).packed gr ch (granuleSample s gr ch) (32 * k) := by
  rw [synthAfter, packed_setHist]
  simp only [State.setHist, Two.set_set]

/-- Window and sum over a known history. -/
theorem synthSample_eq {t : State} {v : Nat → F32} (hv : ∀ i, i < 1024 → t.hist ch i = v i) {j : Nat} (hj : j < 32) :
    synthSample t ch j = fSum 16 fun i => fMul (gathered v (j + 32 * i)) (synthD (j + 32 * i)) := by
  refine fSum_congr _ _ _ fun i hi => ?_
  have hgather : gather t ch (j + 32 * i) = gathered v (j + 32 * i) := by
    rw [gather, gathered, hv _ (by omega), hv _ (by omega)]
  rw [hgather]

end

section
variable {s u : State} {gr ch : Fin 2} {k : Nat}

/-- The samples of step `k`, from a state whose history is that step's. -/
theorem foldl_packSample (hu : ∀ j, j < 1024 → u.hist ch j = historyAfter s gr ch (k + 1) j) {m : Nat} (hm : m ≤ 32) :
    (List.range m).foldl (fun t j => packSample gr ch (32 * k + j) (synthSample t ch j) t)
      (u.packed gr ch (granuleSample s gr ch) (32 * k)) = u.packed gr ch (granuleSample s gr ch) (32 * k + m) := by
  induction m with
  | zero => rfl
  | succ m ih =>
    have hhist (j : Nat) (hj : j < 1024) :
        (u.packed gr ch (granuleSample s gr ch) (32 * k + m)).hist ch j = historyAfter s gr ch (k + 1) j := by
      rw [State.hist, packed_vvec]
      exact hu j hj
    have hdiv : (32 * k + m) / 32 = k := by omega
    have hmod : (32 * k + m) % 32 = m := by omega
    rw [List.range_succ, List.foldl_append, ih (by omega), List.foldl_cons, List.foldl_nil, synthSample_eq hhist (by omega),
      ← Nat.add_assoc, packed_succ, granuleSample, hdiv, hmod, sampleValue]

theorem synthStep_synthAfter : synthStep gr ch k (synthAfter gr ch s k) = synthAfter gr ch s (k + 1) := by
  rw [synthStep, synthHistory_synthAfter, setHist_synthAfter]
  refine foldl_packSample (m := 32) (fun j hj => ?_) le_rfl
  rw [State.hist, State.setHist_vvec, Two.get_set_same, Bank.get_tab _ _ hj]

/-- The first `k` turns of `SYNTH`'s loop. -/
theorem foldl_synthStep : (List.range k).foldl (fun t ss => synthStep gr ch ss t) (s.stage .synth gr ch) = synthAfter gr ch s k := by
  induction k with
  | zero => exact synthAfter_zero.symm
  | succ k ih => rw [List.range_succ, List.foldl_append, ih, List.foldl_cons, List.foldl_nil, synthStep_synthAfter]

end

theorem exec_synth_synthAfter (gr ch : Fin 2) (s : State) : exec (.synth gr ch) s = .next (synthAfter gr ch s 18) := by
  rw [exec_synth, execSynth, opSynth, foldl_synthStep, run_ok]

/-- Settles O53: after `SYNTH` the history is that of 18 steps (`synthAfter_hist`), and the 576 samples are one run of stores
(`packed_hit`, `packed_miss`). -/
theorem synthesis : Obligations.Synthesis := by
  refine fun gr ch s => ⟨_, exec_synth_synthAfter gr ch s, ?_, fun _ => synthAfter_hist, fun ch' hch => ?_,
    fun c ss j hc hss hj => ?_, fun a ha => ?_⟩
  · exact synthAfter_eq
  · rw [synthAfter_vvec, Two.get_set, if_neg hch.symm]
  · have hdiv : (32 * ss + j) / 32 = ss := by omega
    have hmod : (32 * ss + j) % 32 = j := by omega
    have hbytes := packed_hit (s := (s.stage .synth gr ch).setHist ch (.tab 1024 (historyAfter s gr ch 18))) (gr := gr)
      (x := granuleSample s gr ch) (show 32 * ss + j < 32 * 18 by omega) hc
    rwa [granuleSample, hdiv, hmod] at hbytes
  · refine packed_miss fun t ht c hc => ?_
    simp only [pcmBase_eq]
    have hparity : a < 2304 * gr.val ∨ 2304 * gr.val + 2304 ≤ a ∨ a / 2 % 2 ≠ c.val := ha.imp_right (Or.imp_right fun h => h c hc)
    omega

end Sys2Proof.Machine
end

section
/-! The sequencer (47_frame_control R265 to R274): what a step runs (O1), `RESET` and `IDLE` (O54), how a `FRAME` ends (O56), `PRIME` as the
commands it stands for (O59). -/

namespace Sys2Proof.Machine

open Sys2Proof.Claims

/-! ### What a step runs (R265) -/

section
variable {s : State} {i : Instr} {rest : List Byte}

theorem step_of_decode (hd : decode s.port = .ok (i, rest)) :
    step s = if s.bench || i.hostMayIssue then exec i { s with port := rest } else .refused .notACommand := by
  rw [step, hd]

theorem step_runs (hd : decode s.port = .ok (i, rest)) (hi : s.bench = true ∨ i.hostMayIssue = true) :
    step s = exec i { s with port := rest } := by
  rw [step_of_decode hd, if_pos (Bool.or_eq_true_iff.2 hi)]

theorem step_refuses (hd : decode s.port = .ok (i, rest)) (hbench : s.bench = false) (hi : ¬i.hostMayIssue = true) :
    step s = .refused .notACommand := by
  rw [step_of_decode hd, if_neg fun h => (Bool.or_eq_true_iff.1 h).elim (by simp [hbench]) hi]

theorem step_of_empty (h : s.port = []) : step s = .next s := by
  rw [step, h]
  rfl

theorem step_of_undecodable {e : DecodeError} (he : e ≠ .empty) (hd : decode s.port = .error e) :
    step s = .fault (.undecodable e) := by
  rw [step, hd]
  cases e with
  | empty => exact absurd rfl he
  | _ => rfl

end

/-- Settles O1: `step` dispatches on what `decode` answers, and `hostMayIssue` is the three host commands (`hostMayIssue_iff`). -/
theorem stepRunsDecoded : Obligations.StepRunsDecoded := fun _ =>
  ⟨fun i _ hd => ⟨fun h => step_runs hd (h.imp_right (hostMayIssue_iff i).2),
      fun hbench h => step_refuses hd hbench fun hi => h ((hostMayIssue_iff i).1 hi)⟩,
    step_of_empty, fun _ => step_of_undecodable⟩

/-! ### `RESET` and `IDLE` (R267) -/

theorem exec_reset_next (s : State) : exec .reset s = .next (resetState s) := rfl

theorem exec_idle_next (s : State) : exec .idle s = .next { s with seq := .idle } := rfl

/-- Settles O54: `RESET` always answers `resetState`, whose two files are zeros (`zeros_get`). -/
theorem resetAndIdle : Obligations.ResetAndIdle := by
  refine fun s => ⟨⟨_, exec_reset_next s, fun ch sb i => ?_, fun ch j => ?_, rfl, rfl, rfl, rfl, rfl, rfl⟩, exec_idle_next s⟩
  · rw [State.overlap, resetState_store, Two.get_both, zeros_get]
  · rw [State.hist, resetState_vvec, Two.get_both, zeros_get]

/-! ### A loop that completes -/

section
variable {ι κ : Type} {P : State → Prop} {Z : State → ι → Prop} {A B : ι → Prop} {s t u : State}

/-- What a first completed operation gains, a second one keeps. -/
theorem Res.Gains.trans (h : (Res.ok () u).Gains P Z A s) (k : (Res.ok () t).Gains P Z B u) :
    (Res.ok () t).Gains P Z (fun a => A a ∨ B a) s :=
  ⟨k.1, fun a ha => k.2 a ((or_assoc.2 ha).imp_left (h.2 a))⟩

/-- A loop that has completed has gained what each of its turns gains where it completes: a turn may raise. -/
theorem gains_of_forEach_ok {xs : List κ} {f : κ → State → Res Unit} {A : κ → ι → Prop}
    (hf : ∀ x ∈ xs, ∀ t u, P t → f x t = .ok () u → (Res.ok () u).Gains P Z (A x) t) (hs : P s) (hok : forEach xs f s = .ok () t) :
    (Res.ok () t).Gains P Z (fun a => ∃ x ∈ xs, A x a) s := by
  induction xs generalizing s with
  | nil => exact hok ▸ Res.Gains.forEach (f := f) hs nofun
  | cons x xs ih =>
    rw [forEach_cons, andThen_eq_ok] at hok
    obtain ⟨_, u, hx, hrest⟩ := hok
    have hfirst := hf x List.mem_cons_self s u hs hx
    have hothers := ih (fun y hy => hf y (List.mem_cons_of_mem x hy)) hfirst.1 hrest
    exact (hfirst.trans hothers).mono fun a ⟨y, hy, hya⟩ =>
      (List.mem_cons.1 hy).elim (fun heq => .inl (heq ▸ hya)) fun hy => .inr ⟨y, hy, hya⟩

end

/-! ### Reconstruction writes every byte of the frame's `PCM` (R258) -/

/-- A byte of `PCM` that has a value. -/
def Written (s : State) (a : Nat) : Prop := ∃ x, s.pcm.read a = some x

section
variable {h : Hdr} {gr ch : Fin 2} {s t : State}

/-- A stage that leaves `HDR` and `PCM` as they are. -/
theorem gains_of_kept (hhdr : t.hdr = h) (hpcm : t.pcm = s.pcm) : (Res.ok () t).Gains (·.hdr = h) Written (fun _ => False) s :=
  ⟨hhdr, fun a ha => by rw [Written, hpcm]; exact ha.resolve_right id⟩

theorem beforeStereo_gains (hs : s.hdr = h) : (beforeStereo gr ch s).Gains (·.hdr = h) Written (fun _ => False) s :=
  gains_of_kept hs rfl

theorem opStereo_ok_gains (hs : s.hdr = h) (hok : opStereo gr s = .ok () t) :
    (Res.ok () t).Gains (·.hdr = h) Written (fun _ => False) s := by
  have hquiet := opStereo_quiet (i := .idle) gr s
  rw [hok] at hquiet
  obtain ⟨⟨hcontrol, -⟩, hfiles⟩ := hquiet
  obtain ⟨-, -, -, hhdr, -⟩ := State.control_eq hcontrol
  obtain ⟨-, -, -, -, hpcm⟩ := State.persistent_eq (hfiles rfl)
  exact gains_of_kept (hhdr.trans hs) hpcm

theorem opHyb_gains (hs : s.hdr = h) : (opHyb gr ch s).Gains (·.hdr = h) Written (fun _ => False) s := by
  obtain ⟨-, -, -, -, hpcm, hhdr⟩ := opHyb_writesOwn gr ch s
  exact gains_of_kept ((hhdr rfl).trans hs) (hpcm rfl)

/-- A run of samples writes their bytes. -/
theorem packed_gains {x : Nat → F32} {n : Nat} (hs : s.hdr = h) :
    (Res.ok () (s.packed gr ch x n)).Gains (·.hdr = h) Written (fun a => ∃ t < n, SampleBytes h gr ch t a) s := by
  subst hs
  refine ⟨packed_hdr, fun a ha => ?_⟩
  by_cases hhit : ∃ t < n, SampleBytes s.hdr gr ch t a
  · obtain ⟨t, ht, c, hc, rfl | rfl⟩ := hhit
    · exact ⟨_, (packed_hit ht (mem_outputs.1 hc)).1⟩
    · exact ⟨_, (packed_hit ht (mem_outputs.1 hc)).2⟩
  · have hmiss := packed_miss (x := x) fun t ht c hc => not_or.1 fun k => hhit ⟨t, ht, c, mem_outputs.2 hc, k⟩
    exact (ha.resolve_right hhit).imp fun _ => hmiss.trans

theorem opSynth_gains (hs : s.hdr = h) : (opSynth gr ch s).Gains (·.hdr = h) Written (ChannelBytes h gr ch) s := by
  rw [opSynth, foldl_synthStep]
  exact packed_gains (s := (s.stage .synth gr ch).setHist ch (.tab 1024 (historyAfter s gr ch 18))) hs

theorem afterStereo_gains (hs : s.hdr = h) : (afterStereo gr ch s).Gains (·.hdr = h) Written (ChannelBytes h gr ch) s := by
  have halias : (opAlias gr ch s).Gains (·.hdr = h) Written (fun _ => False) s := gains_of_kept hs rfl
  have hfinv (t : State) (ht : t.hdr = h) : (opFinv gr ch t).Gains (·.hdr = h) Written (fun _ => False) t := gains_of_kept ht rfl
  exact halias.next fun _ t ht => (opHyb_gains ht).next fun _ t ht => (hfinv t ht).next fun _ t ht => opSynth_gains ht

theorem reconstructOne_ok_gains (hs : s.hdr = h) (hok : reconstructOne gr s = .ok () t) :
    (Res.ok () t).Gains (·.hdr = h) Written (fun a => ∃ ch ∈ h.channels, ChannelBytes h gr ch a) s := by
  simp only [reconstructOne, andThen_eq_ok] at hok
  obtain ⟨_, u, hbefore, _, v, hstereo, hafter⟩ := hok
  have hu := Res.Gains.forEach (xs := s.hdr.channels) hs fun ch _ t ht => beforeStereo_gains (gr := gr) (ch := ch) ht
  rw [hbefore] at hu
  have hv := opStereo_ok_gains hu.1 hstereo
  have ht := Res.Gains.forEach (xs := v.hdr.channels) hv.1 fun ch _ t ht => afterStereo_gains (gr := gr) (ch := ch) ht
  rw [hafter, hv.1] at ht
  exact ((hu.trans hv).trans ht).mono fun _ => .inr

theorem reconstruct_ok_gains (hok : reconstruct s = .ok () t) : (Res.ok () t).Gains (·.hdr = s.hdr) Written
    (fun a => ∃ gr ∈ s.hdr.granules, ∃ ch ∈ s.hdr.channels, ChannelBytes s.hdr gr ch a) s :=
  gains_of_forEach_ok (fun _ _ _ _ => reconstructOne_ok_gains) rfl hok

end

/-! ### How a `FRAME` ends (R270, R271) -/

section
variable {r : FrameRec} {s t : State}

theorem exec_frame_of_wf (hwf : r.wf = true) : exec (.frame r) s = .next (frameNext r s) := by
  rw [exec_frame, execFrame, if_pos hwf]

theorem exec_frame_of_not_wf (hwf : r.wf = false) : exec (.frame r) s = .refused .recordOutsideType := by
  rw [exec_frame, execFrame, if_neg (by simp [hwf])]

theorem frameRec_wf_iff : r.wf = true ↔ r.siImage.length ≤ r.hdr.siSize ∧ (r.main.length : Int) ≤ max r.hdr.mainSize 0 := by
  rw [FrameRec.wf, Bool.and_eq_true, decide_eq_true_iff, decide_eq_true_iff]
  omega

theorem opFrame_ok_written (hok : opFrame r s = .ok () t) : ∀ a < t.hdr.pcmLen, Written t a := by
  simp only [opFrame, andThen_eq_ok] at hok
  obtain ⟨_, _, -, _, _, -, _, _, -, _, _, -, _, _, -, _, u, -, hrun⟩ := hok
  obtain ⟨hhdr, hbytes⟩ := reconstruct_ok_gains hrun
  exact fun a ha => hbytes a (.inr (channelBytes_cover (hhdr ▸ ha)))

theorem pcmBytes_of_written {n : Nat} (hw : ∀ a < n, Written s a) :
    (pcmBytes s.pcm n).length = n ∧ ∀ a < n, s.pcm.read a = (pcmBytes s.pcm n)[a]? := by
  have hread : ∀ a < n, s.pcm.read a = some ((s.pcm.read a).getD 0#8) := fun a ha => by
    obtain ⟨x, hx⟩ := hw a ha
    rw [hx, Option.getD_some]
  have hbytes : pcmBytes s.pcm n = (List.range n).map fun a => (s.pcm.read a).getD 0#8 :=
    List.filterMap_eq_map_iff_forall_eq_some.2 fun a ha => hread a (List.mem_range.1 ha)
  rw [hbytes]
  refine ⟨by rw [List.length_map, List.length_range], fun a ha => ?_⟩
  rw [List.getElem?_map, List.getElem?_range ha]
  exact hread a ha

/-- The outcome is `Pcm`, with every byte of the frame written. -/
def EndsInPcm (h : Hdr) (t : State) : Prop :=
  ∃ bytes, t.outcome = .pcm bytes ∧ bytes.length = h.pcmLen ∧ (∀ a, a < h.pcmLen → t.pcm.read a = bytes[a]?) ∧
    t.status = ⟨false, false, true⟩

/-- The outcome is `Skipped`. -/
def EndsInSkip (t : State) : Prop :=
  t.outcome = .skipped .rsvInsufficient ∧ t.cause = .rsvInsufficient ∧ t.status = ⟨false, true, false⟩

/-- The outcome is that of a fault, with one of the causes R287 gives `FormatError` and `UnexpectedEOS`. -/
def EndsInFault (t : State) : Prop := ∃ c : Cause, Faulted c t.whr t ∧ 0 < c.code.toNat ∧ c.code.toNat < 0x20

theorem frameEnd_endsInPcm (hok : opFrame r s = .ok () t) (hstatus : s.status = ⟨false, false, false⟩) : EndsInPcm s.hdr (frameEnd t) := by
  have hframed := opFrame_framed r s
  rw [hok] at hframed
  obtain ⟨hkept, -, -, hhdr, -⟩ := State.control_eq hframed.1
  obtain ⟨hlen, hread⟩ := pcmBytes_of_written (opFrame_ok_written hok)
  rw [← hhdr]
  exact ⟨_, rfl, hlen, hread, congrArg Status.endPcm (hkept.trans hstatus)⟩

theorem takeException_ends {c : Cause} (hc : c ≠ .noCause) (ops : List Byte) (hstatus : t.status = ⟨false, false, false⟩) :
    EndsInSkip (takeException c ops t) ∨ EndsInFault (takeException c ops t) := by
  by_cases hskip : c = .rsvInsufficient
  · subst hskip
    exact .inl ⟨rfl, rfl, congrArg (Status.raised · .skipped) hstatus⟩
  · have hcode : 0 < c.code.toNat ∧ c.code.toNat < 0x20 := by
      cases c with
      | noCause => exact absurd rfl hc
      | rsvInsufficient => exact absurd rfl hskip
      | _ => decide
    exact .inr ⟨c, takeException_faulted hskip ops t, hcode⟩

/-- Where no fault is pending the frame's operations complete or raise, and both leave `SEQ` idle. -/
theorem frameNext_ends (r : FrameRec) (hfault : s.status.fault = false) :
    (frameNext r s).seq = .idle ∧
      (EndsInPcm r.hdr (frameNext r s) ∨ EndsInSkip (frameNext r s) ∨ EndsInFault (frameNext r s)) := by
  have hsetup : (frameSetup r s).status = ⟨false, false, false⟩ := congrArg (Status.mk · false false) hfault
  have hframed := opFrame_framed r (frameSetup r s)
  rw [frameNext, if_neg (by simp [hfault])]
  cases hend : opFrame r (frameSetup r s) with
  | ok _ t => exact ⟨rfl, .inl (frameEnd_endsInPcm hend hsetup)⟩
  | raised c t =>
    rw [hend] at hframed
    obtain ⟨hc, hcontrol, -⟩ := hframed
    exact ⟨rfl, .inr (takeException_ends hc _ ((State.control_eq hcontrol).1.trans hsetup))⟩

end

/-- Settles O56: a record in its type runs `frameNext`, which completes with `PCM` written (`reconstruct_ok_gains`) or takes an exception
(`takeException_ends`). -/
theorem frameOutcomes : Obligations.FrameOutcomes := fun r _ =>
  ⟨frameRec_wf_iff, exec_frame_of_not_wf, fun hwf => ⟨_, exec_frame_of_wf hwf, frameNext_ends r⟩⟩

/-! ### `PRIME` (R274) -/

/-- The frames of the host's list that `PRIME k` runs. -/
def primeFrames (k : Nat) (frames : List FrameRec) : List FrameRec := (primeIndices k).filterMap fun i => frames[i]?

theorem runAll_frames {rs : List FrameRec} (hwf : ∀ r ∈ rs, r.wf = true) (s : State) :
    runAll (rs.map .frame) s = .next (rs.foldl (fun t r => frameNext r t) s) := by
  induction rs generalizing s with
  | nil => rfl
  | cons r rs ih =>
    rw [List.map_cons, runAll, exec_frame_of_wf (hwf r List.mem_cons_self)]
    exact ih (fun x hx => hwf x (List.mem_cons_of_mem r hx)) _

theorem exec_prime_eq_runAll {k : Nat} {frames : List FrameRec} {s : State} (hk : 1 ≤ k) (hlen : k < frames.length)
    (hwf : ∀ r ∈ frames, r.wf = true) :
    ∃ t, exec (.prime k frames) s = .next t ∧ runAll (.reset :: (primeFrames k frames).map .frame) s = .next t := by
  have hlisted : (primeIndices k).all (fun i => (frames[i]?).all FrameRec.wf) = true :=
    List.all_eq_true.2 fun i _ => (Option.all_eq_true _ _).2 fun r hr => hwf r (List.mem_of_getElem? hr)
  have hrun : ∀ r ∈ primeFrames k frames, r.wf = true := fun r hr => by
    obtain ⟨i, -, hi⟩ := List.mem_filterMap.1 hr
    exact hwf r (List.mem_of_getElem? hi)
  refine ⟨_, ?_, runAll_frames hrun (resetState s)⟩
  rw [exec_prime, execPrime, if_pos ⟨hk, hlen, hlisted⟩, primeFrames]

/-- Settles O59: `PRIME k` is `RESET` and the frames of its indices in order (`exec_prime_eq_runAll`); these are three, or two where `k = 1`. -/
theorem primeExpands : Obligations.PrimeExpands := by
  intro k frames s hk hlen hwf
  obtain ⟨t, hprime, hrun⟩ := exec_prime_eq_runAll (s := s) hk hlen hwf
  have hat {i : Nat} (hi : i ≤ k) : frames[i]? = some (frames[i]'(by omega)) := List.getElem?_eq_getElem (by omega)
  refine ⟨_, _, _, t, hat (Nat.sub_le k 2), hat (Nat.sub_le k 1), hat le_rfl, hprime, ?_⟩
  rw [← hrun]
  by_cases htwo : 2 ≤ k
  · have hframes : primeFrames k frames = [frames[k - 2], frames[k - 1], frames[k]] := by
      simp [primeFrames, primeIndices, htwo, hat]
    rw [if_pos htwo, hframes]
    rfl
  · obtain rfl : k = 1 := by omega
    have hframes : primeFrames 1 frames = [frames[0], frames[1]] := by simp [primeFrames, primeIndices, hat]
    rw [if_neg htwo, hframes]
    rfl

end Sys2Proof.Machine
end

section
/-! Exceptions (60_exceptions R285 to R295): the cause rows (O60), the order of `FRAME`'s checks (O55), a fault that stays until `RESET` (O7). -/

namespace Sys2Proof.Machine

open Sys2Proof.Claims

/-! ### The cause rows (R287) -/

/-- The row of a cause raises it. -/
theorem exec_of_causeInstr {c : Cause} {i : Instr} (h : causeInstr c.code = some i) (s : State) :
    exec i s = .next (takeException c [] s) := by
  cases c with
  | noCause => cases h
  | _ =>
    obtain rfl := Option.some.inj h
    rfl

/-- The instruction is the row of the cause, and the cause is a fault's. -/
abbrev FaultRow (row : Instr × Cause) : Prop := causeInstr row.2.code = some row.1 ∧ row.2 ≠ .rsvInsufficient

/-- Settles O60: each listed row is its cause's (`FaultRow`), so it raises that cause (`exec_of_causeInstr`) and leaves a fault; the row of
`RSV_INSUFFICIENT` raises `Skipped`, which keeps what it does not record. -/
theorem raiseRecords : Obligations.RaiseRecords := by
  refine fun s => ⟨fun i c hlisted => ?_, exec_of_causeInstr (c := .rsvInsufficient) rfl s⟩
  obtain ⟨hrow, hfault⟩ := (by decide : ∀ row ∈ _, FaultRow row) (i, c) hlisted
  exact ⟨_, exec_of_causeInstr hrow s, takeException_faulted hfault [] s⟩

/-! ### The checks of `FRAME` in order (R291; 47_frame_control R266) -/

/-- A check before an operation. -/
theorem andThen_check {α β : Type} {p : Prop} [Decidable p] (c : Cause) (t : State) (r : Res α) (k : α → State → Res β) :
    (if p then .raised c t else r).andThen k = if p then .raised c t else r.andThen k := by
  split <;> rfl

theorem opRsvCheck_eq_raise (s : State) : opRsvCheck s =
    if s.hdr.mainSize < 0 ∨ 1500 < s.hdr.mainSize then .raised .mainSize (s.stage .rsvCheck 0 0) else .ok () (s.stage .rsvCheck 0 0) := by
  rw [opRsvCheck_eq, ← ite_not]
  exact if_congr (by omega) rfl rfl

/-- What `RSV.APPEND` leaves at its raise (40_bitcursor_reservoir R137). -/
def appended (main : List Byte) (s : State) : State := { s with rsv := s.rsv ++ main, seq := ⟨.rsvAppend, 0, 0⟩ }

theorem reservoir_eq (main : List Byte) (s : State) : reservoir main s =
    if s.rsv.length < s.si.mainDataBegin.toNat then .raised .rsvInsufficient (appended main s) else .ok () (spliced main s) := by
  unfold reservoir
  split_ifs with hhistory
  · rfl
  · exact opRsvSplice_of_history (Nat.not_lt.1 hhistory)

/-- Steps 3 to 10 of `FRAME`: the first check that fails raises; after them the main data is decoded. -/
theorem opFrame_eq (r : FrameRec) (s : State) : opFrame r s =
    if 2000 < s.hdr.frameSize.toNat then .raised .frameSize (s.stage .loadsi 0 0)
    else if r.siImage.length < s.hdr.siSize then .raised .siTruncated (s.stage .loadsi 0 0)
    else if s.hdr.mainSize < 0 ∨ 1500 < s.hdr.mainSize then .raised .mainSize ((loaded r.siImage s).stage .rsvCheck 0 0)
    else if (r.main.length : Int) < s.hdr.mainSize then .raised .mainTruncated ((loaded r.siImage s).stage .rsvRecv 0 0)
    else if s.rsv.length < (unpackSi s.hdr r.siImage s.si).mainDataBegin.toNat then
      .raised .rsvInsufficient (appended r.main (loaded r.siImage s))
    else decodeMain (spliced r.main (loaded r.siImage s)) := by
  rw [opFrame, opLoadsi_eq, andThen_check, andThen_check, andThen_ok, opRsvCheck_eq_raise, andThen_check, andThen_ok, opRsvRecv_eq,
    andThen_check, andThen_ok, reservoir_eq, andThen_check, andThen_ok]
  rfl

section
variable {r : FrameRec} {s t : State} {c : Cause}

theorem frameNext_of_raised (hfault : s.status.fault = false) (hraise : opFrame r (frameSetup r s) = .raised c t) :
    frameNext r s = takeException c (r.siImage ++ r.main) t := by
  rw [frameNext, if_neg (by simp [hfault]), hraise]

theorem frameNext_faulted (hfault : s.status.fault = false) (hc : c ≠ .rsvInsufficient)
    (hraise : opFrame r (frameSetup r s) = .raised c t) : Faulted c t.seq (frameNext r s) :=
  frameNext_of_raised hfault hraise ▸ takeException_faulted hc _ t

end

/-- Settles O55: `opFrame_eq` gives the raise of each clause, a fault (`frameNext_faulted`) but for the last, which is `Skipped` and keeps what
it does not record (`takeException_skipped`). -/
theorem frameCheckOrder : Obligations.FrameCheckOrder := by
  intro r s hwf hfault h mdb
  have hrun := opFrame_eq r (frameSetup r s)
  refine ⟨_, exec_frame_of_wf hwf, fun hframe => ?_, fun hframe himage => ?_, fun hframe himage hsize => ?_,
    fun hframe himage hlow hhigh hmain => ?_, fun hframe himage hlow hhigh hmain hhistory => ?_⟩
  · exact frameNext_faulted hfault (by decide) (hrun.trans (if_pos hframe))
  all_goals replace hrun := hrun.trans (if_neg (Nat.not_lt.2 hframe))
  · exact frameNext_faulted hfault (by decide) (hrun.trans (if_pos himage))
  all_goals replace hrun := hrun.trans (if_neg (Nat.not_lt.2 himage.ge))
  · exact frameNext_faulted hfault (by decide) (hrun.trans (if_pos hsize))
  all_goals replace hrun := hrun.trans (if_neg (not_or.2 ⟨Int.not_lt.2 hlow, Int.not_lt.2 hhigh⟩))
  · exact frameNext_faulted hfault (by decide) (hrun.trans (if_pos hmain))
  replace hrun := hrun.trans ((if_neg (Int.not_lt.2 hmain.ge)).trans (if_pos hhistory))
  rw [frameNext_of_raised hfault hrun, takeException_skipped]
  exact ⟨rfl, congrArg (Status.mk · true false) hfault, rfl, rfl, rfl, rfl, rfl⟩

/-! ### A pending fault (R293(c); 10_state R28) -/

section
variable {r : FrameRec} {i : Instr} {s t : State}

/-- A raise never clears `FAULT`. -/
theorem takeException_pending (hfault : s.status.fault = true) (c : Cause) (ops : List Byte) :
    (takeException c ops s).status.fault = true := by
  rw [takeException_status]
  cases c.exn with
  | skipped => exact hfault
  | _ => rfl

theorem frameNext_pending (hfault : s.status.fault = true) : frameNext r s = { s with outcome := Cause.outcome s.cause } :=
  if_pos hfault

theorem exec_frame_pending (hwf : r.wf = true) (hfault : s.status.fault = true) :
    exec (.frame r) s = .next { s with outcome := Cause.outcome s.cause } := by
  rw [exec_frame_of_wf hwf, frameNext_pending hfault]

/-- An operation keeps `STATUS` until it completes or raises. -/
theorem Answers.pending (h : Answers i s t) (hfault : s.status.fault = true) : t.status.fault = true := by
  obtain ⟨u, ⟨hcontrol, -, -⟩, -, hend⟩ := h
  have hu : u.status.fault = true := (State.control_eq hcontrol).1 ▸ hfault
  obtain ⟨v, rfl⟩ | ⟨c, ops, -, rfl⟩ := hend
  · exact hu
  · exact takeException_pending hu c ops

/-- Every instruction but `RESET` and `PRIME` keeps a pending fault. -/
theorem exec_pending (e : exec i s = .next t) (hreset : i ≠ .reset) (hprime : ∀ k fs, i ≠ .prime k fs)
    (hfault : s.status.fault = true) : t.status.fault = true := by
  cases hw : writesControl i with
  | false => exact (exec_answers i hw e).pending hfault
  | true =>
    obtain rfl | rfl | ⟨r, rfl⟩ | ⟨k, fs, rfl⟩ | ⟨h, rfl⟩ := (writesControl_iff i).1 hw
    · exact Host.Outcome.next.inj e ▸ hfault
    · exact absurd rfl hreset
    · cases hwf : r.wf with
      | false => cases (exec_frame_of_not_wf hwf).symm.trans e
      | true => exact Host.Outcome.next.inj ((exec_frame_pending hwf hfault).symm.trans e) ▸ hfault
    · exact absurd rfl (hprime k fs)
    · obtain rfl | rfl := execHeader_next e
      · exact hfault
      · exact hfault

end

/-- Settles O7: no instruction but `RESET` and `PRIME` clears a pending fault (`exec_pending`), and `FRAME` looks at `FAULT` before all else
(`exec_frame_pending`). -/
theorem faultSticky : Obligations.FaultSticky := by
  refine ⟨fun i s t e hfault hclear => ?_, fun r s => exec_frame_pending⟩
  by_contra hi
  obtain ⟨hreset, hprime⟩ := not_or.1 hi
  have hkept := exec_pending e hreset (fun k fs h => hprime ⟨k, fs, h⟩) hfault
  exact Bool.noConfusion (hclear.symm.trans hkept)

end Sys2Proof.Machine
end
